-- ==== Sys2Proof/Word.lean ====
section
/-!
DEFINITION. The value types of the Lorroku machine: 36-bit words, 72-bit address pairs, bytes (00_scope R11, R12; 03_lorroku_model R61, R64).
-/
namespace Sys2Proof

/-- A 36-bit word: a w register, a machine register, a vector lane, a plate slot (R61). -/
abbrev Word := BitVec 36

/-- A 72-bit address pair, numbered [71:0]; its high word is [71:36] (R12). -/
abbrev Pair := BitVec 72

/-- One byte of memory or of a wire. -/
abbrev Byte := BitVec 8

/-- A 32-bit BAR0 register (R401). -/
abbrev Reg32 := BitVec 32

end Sys2Proof
end

