-- ==== Sys2Proof/Syntax.lean ====
section
/-!
DEFINITION. The commands of the module (spec/opcode_table.json, one constructor per row): the instructions of the cores, and the events, register accesses, packets and host commands that act on the device's blocks.
-/
namespace Sys2Proof

/-- A w, v or plate operand: five bits. -/
abbrev Reg := BitVec 5
/-- An a operand: four bits. -/
abbrev AReg := BitVec 4
/-- A mask operand: three bits. -/
abbrev MReg := BitVec 3

/-- What every instruction command carries besides its operands: the core that issues it and its prefixes (R85), or, for bytes that encode no legal instruction, those bytes: the core meets them in place of an encoding (R86, R87). -/
structure Issue where
  /-- Logical core. -/
  core : Nat
  /-- FW prefix: byte − 0xC0. -/
  fw : Option (BitVec 3) := none
  /-- MASK prefix: zeroing form, mask register. -/
  mask : Option (Bool × MReg) := none
  /-- PSO prefix: rows − 1, slots − 1. -/
  pso : Option (BitVec 6 × BitVec 6) := none
  /-- REUSE prefix: bits [1:0] of the byte. -/
  reuse : Option (BitVec 2) := none
  /-- Bytes at the PC that begin no legal instruction; none: the encoding of the command. -/
  bytes : Option (List Byte) := none
  deriving DecidableEq, Repr

/-- An immediate or displacement: 2 bytes, or 5 bytes with 0xDA, or 9 bytes with 0xDB (R89). -/
inductive Imm where
  | short (v : BitVec 16)
  | long (v : Word)
  | pair (v : Pair)
  deriving DecidableEq, Repr

/-- How a remote access is answered by its target (R247, R248); a failure names the part of the request that met it. -/
inductive RemRes where
  /-- Done; the data read, or the old value of an atomic. -/
  | data (bytes : List Byte)
  /-- Bus error, REASON 4. -/
  | refused (part : Nat)
  /-- Page fault in the target's tables: LEVEL and REASON (R75). -/
  | pageFault (part level reason : Nat)
  /-- Detected error at the target, at a byte of the part. -/
  | memErr (part off : Nat)
  deriving DecidableEq, Repr

/-- What a translation entry says of a page's accesses (R71): MT and HORIZON_DEF. -/
structure PageAttr where
  /-- MT: 0 normal, 1 streaming, 2 ordered. -/
  mt : Nat
  /-- HORIZON_DEF. -/
  hz : Nat
  deriving DecidableEq, Repr

/-- The kind of access behind a memory request of a core (R223): what its data goes to. -/
inductive AccKind where
  /-- A w or an a register, DKIND and DREG in one number: DKIND + DREG × 4. -/
  | reg (dest : Nat)
  /-- A vector register or a plate: the failure is the instruction's own. -/
  | wide
  /-- Nothing: a store. -/
  | store
  /-- An instruction fetch. -/
  | fetch
  deriving DecidableEq, Repr

/-- The access behind a memory request: the address it used, its level, its kind, and its page when it was translated (R223, R234). -/
structure MemAcc where
  addr : BitVec 72
  level : Nat := 0
  kind : AccKind := .store
  page : Option PageAttr := none
  deriving DecidableEq, Repr

/-- A head request at an arbiter's input in one cycle (R257–R262). -/
structure ArbReq where
  input : Nat
  /-- Agent that issued it: core n, 192 + DMA channel, 448 collective engine, 449 Alidade; none for a request from another device. -/
  agent : Option Nat := none
  /-- For a GDDR7 channel: the physical address of the request (R244). -/
  pa : Nat := 0
  /-- For a GDDR7 channel in a cycle that freed a slot: the request is for the bank whose slot was freed (R259). -/
  freed : Bool := false
  /-- For a router output: a packet of the control class (R299). -/
  control : Bool := false
  /-- First request of a locked sequence. -/
  lock : Bool := false
  /-- Last request of a locked sequence. -/
  unlock : Bool := false
  deriving DecidableEq, Repr

/-- What the detection logic finds as a memory request completes (R228, R240). -/
inductive Detect where
  /-- No failure. -/
  | clean
  /-- Parity error in an L1 line: refetched. -/
  | l1Refetch
  /-- Failure in a clean tensor cache line: refetched from home. -/
  | tcClean
  /-- Failure in a modified tensor cache line on an access. -/
  | tcModified
  /-- Failure in a modified tensor cache line at its eviction. -/
  | tcEvict
  /-- GDDR7 mismatch that matches on one re-read. -/
  | transient
  /-- GDDR7 mismatch again, or a fifth EDC failure. -/
  | failed
  /-- Poison reported by a CXL expander. -/
  | cxlPoison
  /-- Parity error in a local store word slot (R227). -/
  | lsParity
  deriving DecidableEq, Repr

/-- The header of a packet (R293). -/
structure Packet where
  dest : Nat
  src : Nat
  dflow : Nat
  sflow : Nat
  pseq : Nat
  typ : Nat
  len : Nat
  deriving DecidableEq, Repr

/-- The fields of a flit (R293), CHECK excepted. -/
structure Flit where
  seq : Nat
  /-- ACK, when ACK_V is 1. -/
  ack : Option Nat := none
  vc : Nat
  sop : Bool := false
  eop : Bool := false
  idle : Bool := false
  /-- PAYLOAD: 244 bytes. -/
  payload : List Byte := []
  deriving DecidableEq, Repr

/-- A data packet of a flow as its target receives it (R247, R294). -/
structure Rx where
  pseq : Nat
  /-- TYPE: 0 WRITE, 1 READ, 3 ATOMIC, 4 BULK. -/
  typ : Nat
  /-- Level of the access at the requester: 0 M, 1 K, 2 T (R70). -/
  level : Nat
  /-- LOCAL and length in bytes of each part, in order: one for a scalar access, one for each active lane of a vector access. -/
  parts : List (Nat × Nat)
  /-- Atomic operation: 0 AMOADD, 1 AMOSWAP, 2 CAS. -/
  op : Nat := 0
  /-- Bytes that travel with the request, part after part. -/
  body : List Byte := []
  /-- The bits of each byte of a WRITE that are stored; none given: all. -/
  bits : List Byte := []
  deriving DecidableEq, Repr

/-- Who accesses a register: a core at its current level, a DMA channel at its LEVEL, Alidade (control windows, R69), or the host (BAR0, R401). -/
inductive Agent where
  | core (c : Nat)
  | dma (q : Nat)
  | alidade
  | host
  deriving DecidableEq, Repr

/-- The collective header of a COLL packet (R332); SUB is the command's own, NBLK the length of its block list. -/
structure CollHdr where
  group : Nat
  bucket : Nat
  step : Nat
  srcrank : Nat := 0
  dstrank : Nat := 0
  /-- Block index, or byte offset. -/
  offset : Nat := 0
  /-- DIR: travels in the − direction. -/
  minus : Bool := false
  deriving DecidableEq, Repr

/-- A reduction block (R331): its header and its 32 mantissas. -/
structure CBlock where
  hdr : BitVec 64
  m : List (BitVec 24)
  deriving DecidableEq, Repr

/-- The place of a packet in a flow: the flow context that receives it, and its PSEQ (R318). -/
structure FlowSeq where
  flow : Nat
  pseq : Nat
  deriving DecidableEq, Repr

/-- A DELAY_PROBE as it arrives (R295): the partner's, with its timestamp, or the echo of an own one, with the round trip in 1/8 ns. -/
inductive Probe where
  | partner (stamp : Nat)
  | echo (trip : Nat)
  deriving DecidableEq, Repr

/-- The outcome of the receiver's own checks of a BLOCKS packet's sums (R336). -/
inductive VCheck where
  /-- Every check passes. -/
  | ok
  /-- The sums of these blocks of the packet fail once, and pass when they are added again (case 2). -/
  | readd (l : List Nat)
  /-- A sum fails again. -/
  | twice
  /-- The owner's check before conversion fails (case 3). -/
  | owner
  deriving DecidableEq, Repr

/-- A COLL packet as its target receives it, by SUB (R332). -/
inductive CollRx where
  /-- BLOCKS, with the outcome of the receiver's own checks. -/
  | blocks (h : CollHdr) (bs : List CBlock) (fail : VCheck)
  /-- DATA: the length of the piece, and bytes of it. -/
  | data (h : CollHdr) (total : Nat) (l : List Byte)
  | ack (h : CollHdr)
  | resend (h : CollHdr)
  | backupReq (h : CollHdr)
  | backupData (h : CollHdr) (bs : List CBlock)
  | epochMismatch (h : CollHdr)
  deriving DecidableEq, Repr

/-- The commands, one constructor per row of the opcode table. -/
inductive Instr where
  -- Scalar map (R93): moves and address pairs
  | nop (x : Issue)
  | mov (x : Issue) (d s : Reg)
  | li (x : Issue) (d : Reg) (i : Imm)
  | lia (x : Issue) (d : AReg) (i : Imm)
  | mova (x : Issue) (d s : AReg)
  | getlo (x : Issue) (d : Reg) (s : AReg)
  | gethi (x : Issue) (d : Reg) (s : AReg)
  | setlo (x : Issue) (d : AReg) (s : Reg)
  | sethi (x : Issue) (d : AReg) (s : Reg)
  | adda (x : Issue) (d s : AReg) (r : Reg)
  | addai (x : Issue) (d s : AReg) (i : Imm)
  | cmpa (x : Issue) (s t : AReg)
  | add (x : Issue) (d a b : Reg)
  | addc (x : Issue) (d a b : Reg)
  | sub (x : Issue) (d a b : Reg)
  | subb (x : Issue) (d a b : Reg)
  | addi (x : Issue) (d a : Reg) (i : Imm)
  | neg (x : Issue) (d a : Reg)
  | cmp (x : Issue) (a b : Reg)
  | cmpi (x : Issue) (a : Reg) (i : Imm)
  | and_ (x : Issue) (d a b : Reg)
  | or_ (x : Issue) (d a b : Reg)
  | xor_ (x : Issue) (d a b : Reg)
  | andn (x : Issue) (d a b : Reg)
  | not_ (x : Issue) (d a : Reg)
  | andi (x : Issue) (d a : Reg) (i : Imm)
  | ori (x : Issue) (d a : Reg) (i : Imm)
  | xori (x : Issue) (d a : Reg) (i : Imm)
  | shl (x : Issue) (d a b : Reg)
  | shr (x : Issue) (d a b : Reg)
  | sar (x : Issue) (d a b : Reg)
  | rol (x : Issue) (d a b : Reg)
  | ror (x : Issue) (d a b : Reg)
  | shli (x : Issue) (d a : Reg) (n : Byte)
  | shri (x : Issue) (d a : Reg) (n : Byte)
  | sari (x : Issue) (d a : Reg) (n : Byte)
  | roli (x : Issue) (d a : Reg) (n : Byte)
  | rori (x : Issue) (d a : Reg) (n : Byte)
  | adds (x : Issue) (d a b : Reg)
  | subs (x : Issue) (d a b : Reg)
  | addus (x : Issue) (d a b : Reg)
  | subus (x : Issue) (d a b : Reg)
  | sarr (x : Issue) (d a : Reg) (n : Byte)
  | satn (x : Issue) (d a : Reg) (n : Byte)
  | satun (x : Issue) (d a : Reg) (n : Byte)
  | abs (x : Issue) (d a : Reg)
  | min (x : Issue) (d a b : Reg)
  | max (x : Issue) (d a b : Reg)
  | minu (x : Issue) (d a b : Reg)
  | maxu (x : Issue) (d a b : Reg)
  | clz (x : Issue) (d a : Reg)
  | ctz (x : Issue) (d a : Reg)
  | popc (x : Issue) (d a : Reg)
  | par36 (x : Issue) (d a : Reg)
  | par18 (x : Issue) (d a : Reg)
  | brev36 (x : Issue) (d a : Reg)
  | brev18 (x : Issue) (d a : Reg)
  | brev8 (x : Issue) (d a : Reg)
  | ext (x : Issue) (d a : Reg) (pos len : Byte)
  | extu (x : Issue) (d a : Reg) (pos len : Byte)
  | ins (x : Issue) (d a : Reg) (pos len : Byte)
  | sext18 (x : Issue) (d a : Reg)
  | sext8 (x : Issue) (d a : Reg)
  | crc32cB (x : Issue) (d a : Reg)
  | crc32cW (x : Issue) (d a : Reg)
  | crc16B (x : Issue) (d a : Reg)
  | crc16W (x : Issue) (d a : Reg)
  -- Memory class
  | ldw (x : Issue) (d : Reg) (s : AReg) (i : Imm)
  | ldh (x : Issue) (d : Reg) (s : AReg) (i : Imm)
  | ldhu (x : Issue) (d : Reg) (s : AReg) (i : Imm)
  | ldb (x : Issue) (d : Reg) (s : AReg) (i : Imm)
  | ldbs (x : Issue) (d : Reg) (s : AReg) (i : Imm)
  | stw (x : Issue) (d : Reg) (s : AReg) (i : Imm)
  | sth (x : Issue) (d : Reg) (s : AReg) (i : Imm)
  | stb (x : Issue) (d : Reg) (s : AReg) (i : Imm)
  | lda (x : Issue) (d s : AReg) (i : Imm)
  | sta (x : Issue) (d s : AReg) (i : Imm)
  | ldwx (x : Issue) (d : Reg) (s : AReg) (r : Reg)
  | stwx (x : Issue) (d : Reg) (s : AReg) (r : Reg)
  | push (x : Issue) (r : Reg)
  | pop (x : Issue) (r : Reg)
  | pusha (x : Issue) (r : AReg)
  | popa (x : Issue) (r : AReg)
  | amoadd (x : Issue) (d : Reg) (s : AReg) (r : Reg)
  | amoswap (x : Issue) (d : Reg) (s : AReg) (r : Reg)
  | cas (x : Issue) (d : Reg) (s : AReg) (r : Reg)
  -- Multiplier and divider
  | mul (x : Issue) (a b : Reg)
  | mulu (x : Issue) (a b : Reg)
  | div (x : Issue) (a b : Reg)
  | divu (x : Issue) (a b : Reg)
  | rdmpl (x : Issue) (d : Reg)
  | rdmph (x : Issue) (d : Reg)
  | rdmq (x : Issue) (d : Reg)
  | rdmrem (x : Issue) (d : Reg)
  | wrmpl (x : Issue) (s : Reg)
  | wrmph (x : Issue) (s : Reg)
  | wrmq (x : Issue) (s : Reg)
  | wrmrem (x : Issue) (s : Reg)
  -- Branches
  | b (x : Issue) (i : Imm)
  | bc (x : Issue) (cond : Byte) (i : Imm)
  | br (x : Issue) (s : AReg)
  | call (x : Issue) (i : Imm)
  | callr (x : Issue) (s : AReg)
  | ret (x : Issue)
  | cbz (x : Issue) (s : Reg) (i : Imm)
  | cbnz (x : Issue) (s : Reg) (i : Imm)
  -- System map (R100)
  | eret (x : Issue)
  | brk (x : Issue)
  | waite (x : Issue)
  | rdpsw (x : Issue) (d : Reg)
  | wrpsw (x : Issue) (s : Reg)
  | rdaf (x : Issue) (d : Reg)
  | wraf (x : Issue) (s : Reg)
  | rdamax (x : Issue) (d : Reg) (p : Byte)
  | rdcsp (x : Issue) (d : AReg)
  | wrcsp (x : Issue) (s : AReg)
  | rdafp (x : Issue) (d : Reg)
  | wrafp (x : Issue) (s : Reg)
  | fence (x : Issue) (k : Byte)
  | xinvAll (x : Issue)
  | xinv (x : Issue) (s : AReg)
  | fdone (x : Issue)
  | rdm (x : Issue) (d : Reg) (n : BitVec 16)
  | wrm (x : Issue) (n : BitVec 16) (s : Reg)
  -- Vector map (R147)
  | vadd (x : Issue) (d a b : Reg)
  | vsub (x : Issue) (d a b : Reg)
  | vmul (x : Issue) (d a b : Reg)
  | vfma (x : Issue) (d a b : Reg)
  | vfnma (x : Issue) (d a b : Reg)
  | vmin (x : Issue) (d a b : Reg)
  | vmax (x : Issue) (d a b : Reg)
  | vabs (x : Issue) (d a : Reg)
  | vneg (x : Issue) (d a : Reg)
  | vdiv (x : Issue) (d a b : Reg)
  | vsqrt (x : Issue) (d a : Reg)
  | vadds (x : Issue) (d a b : Reg)
  | vsubs (x : Issue) (d a b : Reg)
  | vmulq (x : Issue) (d a b : Reg) (n : Byte)
  | vsarr (x : Issue) (d a : Reg) (n : Byte)
  | vsat (x : Issue) (d a : Reg) (n : Byte)
  | vand (x : Issue) (d a b : Reg)
  | vor (x : Issue) (d a b : Reg)
  | vxor (x : Issue) (d a b : Reg)
  | vandn (x : Issue) (d a b : Reg)
  | vnot (x : Issue) (d a : Reg)
  | vshl (x : Issue) (d a : Reg) (n : Byte)
  | vshr (x : Issue) (d a : Reg) (n : Byte)
  | vsar (x : Issue) (d a : Reg) (n : Byte)
  | vmov (x : Issue) (d a : Reg)
  | vbcast (x : Issue) (d s : Reg)
  | vins (x : Issue) (d s l : Reg)
  | vext (x : Issue) (d a l : Reg)
  | viota (x : Issue) (d : Reg)
  | vcmp (x : Issue) (d : MReg) (a b : Reg) (c1 : Byte)
  | vsel (x : Issue) (d a b : Reg) (m : MReg)
  | mand (x : Issue) (d a b : MReg)
  | mor (x : Issue) (d a b : MReg)
  | mxor (x : Issue) (d a b : MReg)
  | mnot (x : Issue) (d a : MReg)
  | mpopc (x : Issue) (d : Reg) (a : MReg)
  | mfirst (x : Issue) (d : Reg) (a : MReg)
  | mtow (x : Issue) (d : Reg) (a : MReg) (h : Byte)
  | mfromw (x : Issue) (d : MReg) (s : Reg) (h : Byte)
  | vcvtw (x : Issue) (d a : Reg) (c1 c2 : Byte) (s : Reg)
  | vcvtn (x : Issue) (d a : Reg) (c1 c2 : Byte) (s : Reg)
  | vmxq (x : Issue) (d wd a : Reg) (c1 c2 : Byte)
  | vschoose (x : Issue) (d s : Reg) (c1 c3 : Byte)
  | vrsum (x : Issue) (d a : Reg)
  | vrmax (x : Issue) (d a : Reg)
  | vrmin (x : Issue) (d a : Reg)
  | vscan (x : Issue) (d a : Reg)
  | vperm (x : Issue) (d a i : Reg)
  | vperm2 (x : Issue) (d a b i : Reg)
  | vslideup (x : Issue) (d a s : Reg)
  | vslidedn (x : Issue) (d a s : Reg)
  | vcompress (x : Issue) (d a : Reg) (m : MReg)
  | vrcp (x : Issue) (d a : Reg)
  | vrsqrt (x : Issue) (d a : Reg)
  | vexp2 (x : Issue) (d a : Reg)
  | vlog2 (x : Issue) (d a : Reg)
  | vld (x : Issue) (d : Reg) (s : AReg) (i : Imm)
  | vst (x : Issue) (d : Reg) (s : AReg) (i : Imm)
  | vlds (x : Issue) (d : Reg) (s : AReg) (r : Reg)
  | vsts (x : Issue) (d : Reg) (s : AReg) (r : Reg)
  | vldn (x : Issue) (d : Reg) (s : AReg) (i : Imm) (c1 : Byte)
  | vstn (x : Issue) (d : Reg) (s : AReg) (i : Imm) (c1 : Byte)
  | vgather (x : Issue) (d : Reg) (s : AReg) (i : Reg)
  | vscatter (x : Issue) (d : Reg) (s : AReg) (i : Reg)
  -- Plate and matrix map (R168, R189)
  | plcfg (x : Issue) (p : Reg) (s : Reg)
  | plget (x : Issue) (d p : Reg) (sel : Byte)
  | plrel (x : Issue) (p : Reg)
  | plrelm (x : Issue) (s : Reg)
  | plclrf (x : Issue) (p : Reg)
  | pld (x : Issue) (p : Reg) (s : AReg) (r : Reg)
  | pst (x : Issue) (p : Reg) (s : AReg) (r : Reg)
  | plsv (x : Issue) (p : Reg) (s : AReg)
  | plrs (x : Issue) (p : Reg) (s : AReg)
  | plcvt (x : Issue) (d a : Reg) (c2 : Byte) (s : Reg)
  | plmxq (x : Issue) (d e a : Reg) (c2 : Byte)
  | plmvr (x : Issue) (d p r : Reg)
  | plmrv (x : Issue) (p a r : Reg)
  | arlds (x : Issue) (p : Reg) (c : Byte)
  | arldsx (x : Issue) (p e : Reg) (c : Byte)
  | arldsp (x : Issue) (p m : Reg) (c : Byte)
  | mma (x : Issue) (p a s : Reg)
  | mmax (x : Issue) (p a e s : Reg)
  | mmacv (x : Issue) (p a s g k : Reg)
  | arget (x : Issue) (d : Reg) (sel : Byte)
  | arset (x : Issue) (s : Reg)
  | arinv (x : Issue) (mask : Byte)
  | arsv (x : Issue) (s : AReg)
  | arrs (x : Issue) (s : AReg)
  -- Events of the blocks, register accesses and host commands
  -- Meridian, schedules and slots (R33–R60)
  | tick
  | holdoverExpiry
  | tickSync (n skew master depth period : Nat) (ann : Option (Nat × Word))
  | periodSwitch (at_ : Word)
  | tickModeChange
  | tickCtrlWrite (by_ : Agent) (which : Nat) (v : Word)
  | tickSwitchAtWrite (by_ : Agent) (v : Word)
  | tickCountLoRead (by_ : Agent)
  | scheduleStartAtTick
  | scheduleStopAtTick
  | frameTaskStart (c : Nat)
  | deferredServe (c ns : Nat)
  | slotStart (p unit : Nat)
  | slotEnd (p : Nat)
  -- Exception entry and results that land (R105, R217–R226)
  | exceptionEntry (c : Nat)
  | deferredErrorReport (c : Nat) (mem : Bool) (access n dkind dreg : Nat) (acc : Nat × Pair)
  | mulResultLand (c : Nat)
  | divResultLand (c : Nat)
  -- Plate rows and array passes (R171, R204, R209)
  | pldRowWrite (c : Nat)
  | stationaryLoadComplete (c : Nat)
  | passComplete (c : Nat)
  -- Memory system and remote access (R227–R264)
  | requestAdmit (agent pa : Nat) (write : Bool) (by_ : Nat × MemAcc)
  | memoryRequestComplete (agent pa : Nat) (write : Bool) (det : Detect) (bank : Nat)
  | gddr7Refresh (g : Nat) (reports : List Nat)
  | tcOpGo (by_ : Agent) (die : Nat) (v : Word)
  | tcOpDone (die : Nat) (bad : List Nat)
  | remoteRequest (f : Nat) (r : Rx)
  | remoteTimeoutExpiry (c : Nat)
  | semCountUpdate (by_ : Agent) (i op : Nat) (v e : Word)
  | cmbxPost (by_ : Agent) (n k : Nat) (v : Word)
  | arbitrationDecision (i : Nat) (heads : List ArbReq)
  | locklong (i : Nat)
  -- DMA (R265–R289)
  | dmaDoorbell (by_ : Agent) (q : Nat)
  | dmaStart (by_ : Agent) (q : Nat)
  | dmaStop (by_ : Agent) (q : Nat)
  | dmaAbort (by_ : Agent) (q : Nat)
  | dmaResume (by_ : Agent) (q : Nat)
  | dmaSkip (by_ : Agent) (q : Nat)
  | dmaReset (by_ : Agent) (q : Nat)
  | dmaDescriptorFetch (q : Nat) (now : Nat × RemRes)
  | dmaNop (q : Nat)
  | copy (q : Nat) (res : RemRes)
  | copy2d (q : Nat) (res : RemRes)
  | transpose (q : Nat) (res : RemRes)
  | convert (q : Nat) (res : RemRes)
  | fill (q : Nat) (res : RemRes)
  | genchk (q : Nat)
  | dmaCompletionRecord (q : Nat × RemRes)
  | dmaPhaseStart (q unit : Nat)
  -- Fabric (R290–R322)
  | portBringup (p : Nat)
  | bringupPhaseTimeout (p phase : Nat)
  | bringupRetry (p : Nat)
  | linkHello (p port coord shape id : Nat)
  | delayProbe (p : Nat) (v : Probe)
  | flitReceive (p : Nat) (b : List Byte × Option Nat)
  | nak (p seq : Nat)
  | retrainDone (p : Nat) (ok : Bool)
  | credit (p : Nat) (l : List Nat)
  | unreachable (k : Nat × FlowSeq)
  | routeAt (p tick : Nat)
  | routeUpdate
  | beacon (p st : Nat) (b : Option (Nat × Nat) × Bool)
  | flood (p : Nat) (ns : List (BitVec 64))
  | noticeEffect
  | seedTakeover
  | fabEnable (by_ : Agent) (on : Bool)
  | fabAuth (by_ : Agent) (on : Bool)
  | fabDrain (by_ : Agent)
  | fabRejoin (by_ : Agent)
  | trainingDone
  | admitAnnounce
  | admitAtTick
  | drainComplete
  | leaveAtTick
  | notAdmitted (src f after : Nat)
  | portLost (p : Nat)
  | flowCmdListen (by_ : Agent) (f : Nat)
  | flowCmdOpen (by_ : Agent) (f : Nat)
  | flowCmdClose (by_ : Agent) (f : Nat)
  | flowCmdReset (by_ : Agent) (f : Nat)
  | flowOpen (src sflow f : Nat)
  | flowAccept (src sflow f : Nat)
  | flowRefuse (src f reason after : Nat)
  | flowClose (src f : Nat)
  | flowCloseDrained (f : Nat)
  | backoffExpiry (f : Nat)
  | openTimeout (f : Nat)
  | reorderTimeout (f : Nat)
  | write (f : Nat) (r : Rx)
  | read (f : Nat) (r : Rx)
  | resp (f pseq : Nat) (res : RemRes)
  | atomic (f : Nat) (r : Rx)
  | bulk (f : Nat) (r : Rx)
  | fabBindInv (by_ : Agent) (v : Word)
  -- Collective engine (R323–R348)
  | ceQueueDoorbell (by_ : Agent) (q : Nat)
  | ceQueueStart (by_ : Agent) (q : Nat)
  | ceQueueStop (by_ : Agent) (q : Nat)
  | ceQueueReset (by_ : Agent) (q : Nat)
  | ceNop (q : Nat)
  | reduceScatter (q : Nat)
  | allGather (q : Nat)
  | allReduce (q : Nat)
  | allToAll (q : Nat)
  | permute (q : Nat)
  | partTake (g b st : Nat)
  | blocks (k : FlowSeq) (h : CollHdr) (bs : List CBlock) (fail : VCheck)
  | data (k : FlowSeq) (h : CollHdr) (total : Nat) (l : List Byte)
  | ack (k : FlowSeq) (h : CollHdr)
  | resend (k : FlowSeq) (h : CollHdr)
  | bucketDeadline (g b st : Nat) (segs : List Nat) (exp0 : Nat)
  | backupReq (k : FlowSeq) (h : CollHdr)
  | backupData (k : FlowSeq) (h : CollHdr) (bs : List CBlock)
  | backupGraceExpiry (g b st : Nat)
  | carryComplete (g b st : Nat)
  | epochMismatch (k : FlowSeq) (h : CollHdr)
  | memberLost (g b st : Nat)
  | bucketComplete (g b st : Nat)
  | shAdv (by_ : Agent) (n : Nat) (v : Word)
  -- Shuttle, lineage and records (R345–R397)
  | shHoldExpiry (n : Nat)
  | linFind (by_ : Agent) (n : Nat) (v : Word)
  | ephOpen (by_ : Agent) (v : Word)
  | recordOpen
  | ephCommit (by_ : Agent) (v : Word)
  | stepCommit
  | rollbackAtTick
  | ephModeChange
  | ephDigLen (by_ : Agent) (v : Word)
  | digestComplete
  | ephNote (by_ : Agent) (v : Word)
  | ephRecovWrite (by_ : Agent) (v : Word)
  | budgetExpired
  | coreRetirement (c reason : Nat)
  | fatalError (reason code : Nat) (lost : List Nat)
  -- Host interface and Ranas commands (R398–R412)
  | mbxDoorbell (n : Nat)
  | mbxResRead (n : Nat)
  | commandComplete (n : Nat)
  | getIdentity (n : Nat)
  | getStatus (n : Nat)
  | getLog (n : Nat)
  | runtimeStart (n : Nat)
  | coreReset (n : Nat)
  | schedInstall (n : Nat)
  | schedStart (n : Nat)
  | schedStop (n : Nat)
  | dqSet (n : Nat)
  | tickSet (n : Nat)
  | fabConfig (n : Nat)
  | fabControlEnable (n : Nat)
  | fabControlAuth (n : Nat)
  | fabControlDrain (n : Nat)
  | fabControlRejoin (n : Nat)
  | fabControlDisable (n : Nat)
  | fabControlPortDisable (n : Nat)
  | fabControlPortEnable (n : Nat)
  | fabControlPortRetrain (n : Nat)
  | fabPortRetrain (by_ : Agent) (p : Nat)
  | fabMembers (n : Nat)
  | cxlMap (n : Nat)
  | memPools (n : Nat)
  | remoteTimeout (n : Nat)
  | semAdd (n : Nat)
  | semToHost (n : Nat)
  | rollback (n : Nat)
  | dumpSet (n : Nat)
  | moduleReset (n : Nat)
  | fwWrite (n : Nat × Bool)
  | fwActivate (n : Nat)
  | debugNonce (n : Nat)
  | debugToken (n : Nat)
  | hostCxlMemAccess (pa n : Nat) (data : Option (List Byte))
  | hostHeartbeat
  -- Management (R413–R422)
  | getVersion (t : Nat)
  | getCapabilities (t version : Nat)
  | negotiateAlgorithms (t : Nat) (ed448 sha3 : Bool)
  | getDigests (t : Nat)
  | getCertificate (t slot off len : Nat)
  | challenge (t slot : Nat)
  | getMeasurements (t index : Nat) (signed : Bool)
  | pldmFirmwareUpdate (image : Option (List Byte × Bool))
  | activateFirmware
  | pldmSensorRead (n : Nat)
  | getId
  | getNonce
  | putToken (l : List Byte)
  | readState (c n : Nat)
  | halt (c : Nat)
  | resume (c : Nat)
  | step (c : Nat)
  | readMem (pa n : Nat)
  | writeMem (pa : Nat) (l : List Byte)
  | alidadeTrace (n : Nat)
  | readPlate (c p r : Nat)
  | readSet (c sel j : Nat)
  -- Power and resets (R436–R448)
  | powerOn (bad untrained : List Nat) (modules : Nat)
  | powerOff
  | abruptPowerOff (unit cause : Nat)
  | powerFatal (why : Nat × Nat)
  | throttleStepDown (step reason : Nat)
  | throttleStepUp (step reason : Nat)
  | coldReset (bad untrained : List Nat)
  | warmReset (bad : List Nat)
  | coreResetSequence (c : Nat)
  | linkReset (p : Nat)
  | alidadeWatchdogExpiry (again : Bool) (bad untrained : List Nat)
  -- Registers and other events
  | readClear (by_ : Agent) (o : Nat)
  | registerWrite (by_ : Agent) (o : Nat) (v : Word)
  | linkAlignLost (p : Nat)
  | lineageSearchComplete (n : Nat)
  | ucieCxlLinkRetrained (cxl : Bool) (index : Nat)
  | cxlExpanderDown (port : Nat)
  | mctpControlMessage (assign : Option Nat)
  | pldmBaseDiscovery
  | alidadeRestart
  deriving DecidableEq, Repr

end Sys2Proof
end

