-- ==== Sys2Proof/Decode.lean ====
section
/-!
DEFINITION. Commands that words spell by the opcode table's bits. The table of this block gives no row any bits: its rows are commands, events and register accesses, and no word spells one.
-/
namespace Sys2Proof

/-- The command that `nbits` bits of a word spell by the opcode table: none, for no row has bits. -/
def decodeTableWord (_nbits _w : Nat) : Option Instr := none

end Sys2Proof
end

