-- ==== Sys2Proof/Machine/Bits.lean ====
section
/-!
DEFINITION. Bit fields, sign extension, byte order, bit counts and the CRC steps: the helpers that every register map and every instruction uses.
-/
namespace Sys2Proof.Machine

/-- Field `[lo+len-1 : lo]` of a register as a number. -/
def fld {n : Nat} (w : BitVec n) (lo len : Nat) : Nat := (w.extractLsb' lo len).toNat

/-- A register with ones in `[lo+len-1 : lo]`. -/
def maskOf (n lo len : Nat) : BitVec n := BitVec.ofNat n ((2 ^ len - 1) * 2 ^ lo)

/-- Writes a number into field `[lo+len-1 : lo]`; the other bits keep their value. -/
def setFld {n : Nat} (w : BitVec n) (lo len v : Nat) : BitVec n :=
  (w &&& ~~~ maskOf n lo len) ||| BitVec.ofNat n ((v % 2 ^ len) * 2 ^ lo)

/-- Bit `i` of a register. -/
def bitAt {n : Nat} (w : BitVec n) (i : Nat) : Bool := w.getLsbD i

/-- Writes bit `i` of a register. -/
def setBitAt {n : Nat} (w : BitVec n) (i : Nat) (b : Bool) : BitVec n := setFld w i 1 b.toNat

/-- A field placed at bit `lo` of an otherwise zero register. -/
def at_ (n lo v : Nat) : BitVec n := BitVec.ofNat n (v * 2 ^ lo)

/-- A number as a 36-bit word. -/
def word (v : Nat) : Word := BitVec.ofNat 36 v

/-- A Bool as a number placed at a bit position. -/
def flag (b : Bool) (lo : Nat) : Nat := if b then 2 ^ lo else 0

/-- Low word of an address pair (R12). -/
def lo36 (p : Pair) : Word := p.extractLsb' 0 36

/-- High word of an address pair (R12). -/
def hi36 (p : Pair) : Word := p.extractLsb' 36 36

/-- An address pair from its high and low words. -/
def mkPair (hi lo : Word) : Pair := hi ++ lo

/-- A write of the RW bits named by `rw`, the write-one-to-clear bits named by `w1c`; other bits keep their value (R13, R14). -/
def accWrite {n : Nat} (old v rw w1c : BitVec n) : BitVec n :=
  ((old &&& ~~~ rw) ||| (v &&& rw)) &&& ~~~ (v &&& w1c)

/-- Sign extension of a `BitVec m` to `BitVec n`. -/
def sx {m : Nat} (n : Nat) (v : BitVec m) : BitVec n := v.signExtend n

/-- Zero extension of a `BitVec m` to `BitVec n`. -/
def zx {m : Nat} (n : Nat) (v : BitVec m) : BitVec n := v.setWidth n

/-! ## Byte order (R64): little-endian -/

/-- The bytes of a number, least significant first. -/
def bytesOf (v : Nat) : Nat → List Byte
  | 0 => []
  | k + 1 => BitVec.ofNat 8 v :: bytesOf (v / 256) k

/-- The number that a list of bytes holds, least significant first. -/
def natOfBytes : List Byte → Nat
  | [] => 0
  | b :: r => b.toNat + 256 * natOfBytes r

/-- A word as its 8-byte slot: bits [63:36] are copies of bit 35 (R64). -/
def wordBytes (w : Word) : List Byte := bytesOf (w.signExtend 64).toNat 8

/-- A halfword as its 4-byte slot: bits [31:18] are copies of bit 17 (R64). -/
def halfBytes (h : BitVec 18) : List Byte := bytesOf (h.signExtend 32).toNat 4

/-- A word pair as its 16-byte slot, low word first (R64). -/
def pairBytes (p : Pair) : List Byte := wordBytes (lo36 p) ++ wordBytes (hi36 p)

/-- The word in an 8-byte slot; the extension bits are ignored (R64). -/
def wordOfBytes (l : List Byte) : Word := BitVec.ofNat 36 (natOfBytes (l.take 8))

/-- The halfword in a 4-byte slot (R64). -/
def halfOfBytes (l : List Byte) : BitVec 18 := BitVec.ofNat 18 (natOfBytes (l.take 4))

/-- The pair in a 16-byte slot (R64). -/
def pairOfBytes (l : List Byte) : Pair := mkPair (wordOfBytes (l.drop 8)) (wordOfBytes l)

/-- Cuts a byte list into slots of `k` bytes. -/
def chunks (k : Nat) : Nat → List Byte → List (List Byte)
  | 0, _ => []
  | n + 1, l => l.take k :: chunks k n (l.drop k)

/-! ## Bit counts (R93, R97) -/

/-- Number of ones among bits 0 … k-1. -/
def popUpTo {n : Nat} (w : BitVec n) : Nat → Nat
  | 0 => 0
  | k + 1 => (w.getLsbD k).toNat + popUpTo w k

/-- Number of ones. -/
def popcount {n : Nat} (w : BitVec n) : Nat := popUpTo w n

/-- Leading zeros seen from bit k-1 down. -/
def clzFrom {n : Nat} (w : BitVec n) : Nat → Nat
  | 0 => 0
  | k + 1 => if w.getLsbD k then 0 else 1 + clzFrom w k

/-- Count of leading zeros (0–n). -/
def clz {n : Nat} (w : BitVec n) : Nat := clzFrom w n

/-- Index of the lowest one at or above `i`, looking at `k` bits; `i + k` when there is none. -/
def ctzFrom {n : Nat} (w : BitVec n) (i : Nat) : Nat → Nat
  | 0 => i
  | k + 1 => if w.getLsbD i then i else ctzFrom w (i + 1) k

/-- Count of trailing zeros (0–n). -/
def ctz {n : Nat} (w : BitVec n) : Nat := ctzFrom w 0 n

/-- Parity: exclusive or of every bit. -/
def parity {n : Nat} (w : BitVec n) : Bool := popcount w % 2 = 1

/-- Bits reversed within a register. -/
def bitRev {n : Nat} (w : BitVec n) : BitVec n := w.reverse

/-! ## CRC steps (R98) -/

/-- `k` shifts of the reflected CRC-32C register. -/
def crc32cShift (s : BitVec 32) : Nat → BitVec 32
  | 0 => s
  | k + 1 => crc32cShift (if s.getLsbD 0 then (s >>> 1) ^^^ 0x82F63B78#32 else s >>> 1) k

/-- CRC-32C step over one byte. -/
def crc32cByte (s : BitVec 32) (b : Byte) : BitVec 32 := crc32cShift (s ^^^ b.setWidth 32) 8

/-- CRC-32C over a list of bytes. -/
def crc32c (s : BitVec 32) (l : List Byte) : BitVec 32 := l.foldl crc32cByte s

/-- `k` shifts of the CRC-16/CCITT register, most significant bit first. -/
def crc16Shift (s : BitVec 16) : Nat → BitVec 16
  | 0 => s
  | k + 1 => crc16Shift (if s.getLsbD 15 then (s <<< 1) ^^^ 0x1021#16 else s <<< 1) k

/-- CRC-16/CCITT step over one byte. -/
def crc16Byte (s : BitVec 16) (b : Byte) : BitVec 16 := crc16Shift (s ^^^ (b.setWidth 16 <<< 8)) 8

/-- CRC-16/CCITT over a list of bytes. -/
def crc16 (s : BitVec 16) (l : List Byte) : BitVec 16 := l.foldl crc16Byte s

/-- Adds to a counter that saturates at `top`. -/
def satAdd (top a b : Nat) : Nat := min top (a + b)

/-- Ceiling division. -/
def ceilDiv (a b : Nat) : Nat := (a + b - 1) / b

end Sys2Proof.Machine
end

