-- ==== Sys2Proof/Machine/Fp.lean ====
section
/-!
DEFINITION. The number formats of 05_number_formats: decoding, exact arithmetic on decoded values, the one rounding rule and the one overflow rule.
-/
namespace Sys2Proof.Machine

/-! ## Formats (R115, R118) -/

/-- A number format. -/
inductive NumFmt where
  | f36 | f18 | fp32 | fp16 | bf16 | e4m3 | e5m2 | e3m2 | e2m3 | e2m1 | e8m0
  | int36 | int18 | int8 | int4 | uint36 | uint18
  deriving DecidableEq, Repr

/-- The format of a 5-bit format code; codes 15–31 are reserved (R118). -/
def NumFmt.ofCode : Nat → Option NumFmt
  | 0 => some .f36 | 1 => some .e4m3 | 2 => some .e5m2 | 3 => some .bf16 | 4 => some .fp16
  | 5 => some .int8 | 6 => some .e2m1 | 7 => some .e3m2 | 8 => some .e2m3 | 9 => some .int4
  | 10 => some .f18 | 11 => some .int36 | 12 => some .int18 | 13 => some .e8m0 | 14 => some .fp32
  | _ => none

/-- Width of one element in bits. -/
def NumFmt.width : NumFmt → Nat
  | .f36 | .int36 | .uint36 => 36
  | .f18 | .int18 | .uint18 => 18
  | .fp32 => 32
  | .fp16 | .bf16 => 16
  | .e4m3 | .e5m2 | .e8m0 | .int8 => 8
  | .e3m2 | .e2m3 => 6
  | .e2m1 | .int4 => 4

/-- Elements per 36-bit slot (R118). -/
def NumFmt.perSlot : NumFmt → Nat
  | .f36 | .int36 | .uint36 | .fp32 => 1
  | .f18 | .int18 | .uint18 | .fp16 | .bf16 => 2
  | .e4m3 | .e5m2 | .e8m0 | .int8 => 4
  | .e3m2 | .e2m3 => 6
  | .e2m1 | .int4 => 8

/-- Integer formats. -/
def NumFmt.isInt : NumFmt → Bool
  | .int36 | .int18 | .int8 | .int4 | .uint36 | .uint18 => true
  | _ => false

/-- Unsigned integer lane formats. -/
def NumFmt.isUnsigned : NumFmt → Bool
  | .uint36 | .uint18 => true
  | _ => false

/-- Fraction bits of a floating-point format. -/
def NumFmt.fbits : NumFmt → Nat
  | .f36 => 26 | .f18 => 9 | .fp32 => 23 | .fp16 => 10 | .bf16 => 7
  | .e4m3 => 3 | .e5m2 => 2 | .e3m2 => 2 | .e2m3 => 3 | .e2m1 => 1
  | _ => 0

/-- Exponent bits of a floating-point format. -/
def NumFmt.ebits : NumFmt → Nat
  | .f36 => 9 | .f18 => 8 | .fp32 => 8 | .fp16 => 5 | .bf16 => 8
  | .e4m3 => 4 | .e5m2 => 5 | .e3m2 => 3 | .e2m3 => 2 | .e2m1 => 2
  | _ => 0

/-- Exponent bias of a floating-point format. -/
def NumFmt.bias : NumFmt → Nat
  | .f36 => 255 | .f18 => 127 | .fp32 => 127 | .fp16 => 15 | .bf16 => 127
  | .e4m3 => 7 | .e5m2 => 15 | .e3m2 => 3 | .e2m3 => 1 | .e2m1 => 1
  | _ => 127

/-- The format has infinities (R115). -/
def NumFmt.hasInf : NumFmt → Bool
  | .f36 | .f18 | .fp32 | .fp16 | .bf16 | .e5m2 => true
  | _ => false

/-- Largest finite magnitude of a floating-point format, as its encoding without the sign. -/
def NumFmt.maxBits (f : NumFmt) : Nat :=
  match f with
  | .e4m3 => 0x7E
  | _ => if f.hasInf then (2 ^ f.ebits - 1) * 2 ^ f.fbits - 1 else 2 ^ (f.ebits + f.fbits) - 1

/-- Canonical NaN (R116); formats without a NaN have none. -/
def NumFmt.nanBits : NumFmt → Nat
  | .f36 => 0o377600000000 | .f18 => 0o377400 | .fp32 => 0x7FC00000 | .fp16 => 0x7E00 | .bf16 => 0x7FC0
  | .e4m3 => 0x7F | .e5m2 => 0x7E | .e8m0 => 0xFF
  | _ => 0

/-! ## Decoded values -/

/-- A decoded value; `fin neg m e` is ±m × 2^e with m > 0, and integer formats decode to the same shape. -/
inductive FVal where
  | zero (neg : Bool)
  | fin (neg : Bool) (m : Nat) (e : Int)
  | inf (neg : Bool)
  | nan
  deriving DecidableEq, Repr

/-- A decoded value from an integer mantissa and an exponent. -/
def FVal.ofInt (i e : Int) : FVal := if i = 0 then .zero false else .fin (decide (i < 0)) i.natAbs e

/-- The signed mantissa of a finite value at exponent `e0` at or below its own. -/
def FVal.scaled (e0 : Int) : FVal → Int
  | .fin s m e => (if s then -1 else 1) * (m : Int) * 2 ^ (e - e0).toNat
  | _ => 0

/-- The two's-complement value of the low `w` bits. -/
def toSigned (w bits : Nat) : Int := if bits % 2 ^ w < 2 ^ (w - 1) then ((bits % 2 ^ w : Nat) : Int) else ((bits % 2 ^ w : Nat) : Int) - 2 ^ w

/-- Decodes one element (R115). -/
def NumFmt.decode (f : NumFmt) (bits : Nat) : FVal :=
  if f.isInt then
    FVal.ofInt (if f.isUnsigned then ((bits % 2 ^ f.width : Nat) : Int) else toSigned f.width bits) 0
  else if f = .e8m0 then
    if bits % 256 = 255 then .nan else .fin false 1 (((bits % 256 : Nat) : Int) - 127)
  else
    let fr := bits % 2 ^ f.fbits
    let ex := bits / 2 ^ f.fbits % 2 ^ f.ebits
    let neg := bits / 2 ^ (f.fbits + f.ebits) % 2 = 1
    if f = .e4m3 ∧ bits % 128 = 127 then .nan
    else if f.hasInf ∧ ex = 2 ^ f.ebits - 1 then (if fr = 0 then .inf neg else .nan)
    else if ex = 0 then (if fr = 0 then .zero neg else .fin neg fr (1 - (f.bias : Int) - f.fbits))
    else .fin neg (2 ^ f.fbits + fr) ((ex : Int) - f.bias - f.fbits)

/-- Element `k` of a slot (R120). -/
def NumFmt.elem (f : NumFmt) (slot : Word) (k : Nat) : Nat := slot.toNat / 2 ^ (f.width * k) % 2 ^ f.width

/-- Writes element `k` of a slot. -/
def NumFmt.putElem (f : NumFmt) (slot : Word) (k bits : Nat) : Word := setFld slot (f.width * k) f.width bits

/-- A slot packed from its elements; bits no element occupies are zero (R120). -/
def NumFmt.pack (f : NumFmt) (es : List Nat) : Word :=
  word ((es.zipIdx.map (fun p => p.1 % 2 ^ f.width * 2 ^ (f.width * p.2))).sum)

/-! ## Flags, in AFLAGS order (R134) -/

/-- The flags one element raises: bits 0 INV, 1 DZ, 2 OVF, 3 UNF, 4 INX, 5 SAT, 6 NANR, 7 INFR, 8 ISC. -/
abbrev Flg := BitVec 9

def fINV : Flg := 1#9
def fDZ : Flg := 2#9
def fOVF : Flg := 4#9
def fUNF : Flg := 8#9
def fINX : Flg := 16#9
def fSAT : Flg := 32#9
def fNANR : Flg := 64#9
def fINFR : Flg := 128#9
def fISC : Flg := 256#9

/-- One delivered element: its bits and the flags it raises. -/
structure FRes where
  bits : Nat
  flags : Flg
  stoch : Bool := false
  deriving DecidableEq, Repr

/-! ## Rounding (R126–R131) -/

/-- What selects the delivered value: RMODE, OVMODE and the 16-bit draw of R129. -/
structure RCtx where
  rmode : Nat
  ovmode : Nat
  draw : Nat
  deriving DecidableEq, Repr

/-- Rounds up? `sig` is the truncated significand, `num / 2^sh` the remainder, `sticky` a further non-zero tail (R127, R128). -/
def roundUp (rmode draw : Nat) (neg : Bool) (sig num sh : Nat) (sticky : Bool) : Bool :=
  let inexact := num ≠ 0 || sticky
  match rmode with
  | 1 => false
  | 2 => inexact && !neg
  | 3 => inexact && neg
  | 4 => inexact && decide (65536 ≤ num * 65536 / 2 ^ sh + draw)
  | _ => decide (2 ^ sh < 2 * num) || (decide (2 * num = 2 ^ sh) && (sticky || decide (sig % 2 = 1)))

/-- A magnitude m × 2^e (plus a tail below 2^e when `sticky`) rounded to a multiple of 2^q: the multiple and whether it is inexact. -/
def roundAt (rmode draw : Nat) (neg : Bool) (m : Nat) (e q : Int) (sticky : Bool) : Nat × Bool :=
  if q ≤ e then (m * 2 ^ (e - q).toNat, sticky)
  else
    let sh := (q - e).toNat
    let sig := m / 2 ^ sh
    let num := m % 2 ^ sh
    (if roundUp rmode draw neg sig num sh sticky then sig + 1 else sig, num ≠ 0 || sticky)

/-- m × 2^e < n × 2^f, exactly. -/
def magLt (m : Nat) (e : Int) (n : Nat) (f : Int) : Bool :=
  if e ≤ f then decide (m < n * 2 ^ (f - e).toNat) else decide (m * 2 ^ (e - f).toNat < n)

/-- The encoding of sig × 2^q, where q is at least the format's least quantum exponent and sig has at most one bit too many. -/
def NumFmt.encodeMag (f : NumFmt) (sig : Nat) (q : Int) : Nat :=
  let qmin : Int := 1 - (f.bias : Int) - f.fbits
  if sig < 2 ^ f.fbits then sig
  else if sig < 2 ^ (f.fbits + 1) then ((q - qmin).toNat + 1) * 2 ^ f.fbits + (sig - 2 ^ f.fbits)
  else ((q - qmin).toNat + 2) * 2 ^ f.fbits

/-- The sign bit of a format. -/
def NumFmt.signBits (f : NumFmt) (neg : Bool) : Nat := if neg then 2 ^ (f.fbits + f.ebits) else 0

/-- The encoding of ±Inf. -/
def NumFmt.infBits (f : NumFmt) (neg : Bool) : Nat := f.signBits neg + (2 ^ f.ebits - 1) * 2 ^ f.fbits

/-- OVMODE resolves to IEEE for this target (R132). -/
def NumFmt.ieee (f : NumFmt) (ovmode : Nat) : Bool :=
  match f with
  | .f36 | .f18 | .fp32 | .bf16 | .fp16 => ovmode ≠ 1
  | .e5m2 | .e4m3 => ovmode = 2
  | _ => false

/-- The value delivered on overflow (R132): bits and whether Inf or NaN was delivered. -/
def NumFmt.overflow (f : NumFmt) (c : RCtx) (neg : Bool) : FRes :=
  let sat : FRes := { bits := f.signBits neg + f.maxBits, flags := fOVF ||| fINX }
  if !f.ieee c.ovmode then sat
  else if c.rmode = 1 || (c.rmode = 2 && neg) || (c.rmode = 3 && !neg) then sat
  else if f = .e4m3 then { bits := f.nanBits, flags := fOVF ||| fINX ||| fNANR }
  else { bits := f.infBits neg, flags := fOVF ||| fINX ||| fINFR }

/-- Rounds a finite non-zero magnitude into a floating-point format (R126–R132). -/
def NumFmt.roundFloat (f : NumFmt) (c : RCtx) (neg : Bool) (m : Nat) (e : Int) (sticky : Bool) : FRes :=
  let top : Int := (Nat.log2 m : Int) + e
  let emin : Int := 1 - (f.bias : Int)
  let q := max top emin - f.fbits
  let r := roundAt c.rmode c.draw neg m e q sticky
  let u := roundAt c.rmode c.draw neg m e (top - f.fbits) sticky
  let tiny := magLt u.1 (top - f.fbits) 1 emin
  let st := decide (c.rmode = 4) && r.2
  let maxv := f.decode f.maxBits
  let above := match maxv with
    | .fin _ mm me => magLt mm me r.1 q
    | _ => false
  if above then { f.overflow c neg with stoch := st }
  else { bits := f.signBits neg + f.encodeMag r.1 q
         flags := (if r.2 then fINX else 0#9) ||| (if r.2 && tiny then fUNF else 0#9)
         stoch := st }

/-- Range of an integer format. -/
def NumFmt.intRange (f : NumFmt) : Int × Int :=
  if f.isUnsigned then (0, 2 ^ f.width - 1) else (-(2 ^ (f.width - 1)), 2 ^ (f.width - 1) - 1)

/-- The encoding of an integer in an integer format. -/
def NumFmt.encodeInt (f : NumFmt) (i : Int) : Nat := (i % 2 ^ f.width).toNat

/-- Rounds a finite value to an integer format; a value out of range takes the limit and raises OVF, SAT and INX (R132). The unsigned lane formats, which R132 does not list, have the limits 0 and 2^w - 1 (R151) (DEDUCED, log 56). -/
def NumFmt.roundInt (f : NumFmt) (c : RCtx) (neg : Bool) (m : Nat) (e : Int) (sticky : Bool) : FRes :=
  let r := roundAt c.rmode c.draw neg m e 0 sticky
  let i : Int := if neg then -(r.1 : Int) else r.1
  let st := decide (c.rmode = 4) && r.2
  if i < f.intRange.1 then { bits := f.encodeInt f.intRange.1, flags := fOVF ||| fSAT ||| fINX, stoch := st }
  else if f.intRange.2 < i then { bits := f.encodeInt f.intRange.2, flags := fOVF ||| fSAT ||| fINX, stoch := st }
  else { bits := f.encodeInt i, flags := if r.2 then fINX else 0#9, stoch := st }

/-- Conversion of a value into a target format (R131–R133). An infinite source to E4M3 under SAT, which is in no row of R133, gives ±448 with OVF (DEDUCED, log 56). -/
def NumFmt.convert (f : NumFmt) (c : RCtx) (v : FVal) : FRes :=
  match v with
  | .zero neg => { bits := if f.isInt then 0 else f.signBits neg, flags := 0#9 }
  | .fin neg m e => if f.isInt then f.roundInt c neg m e false else f.roundFloat c neg m e false
  | .inf neg =>
    if f.isInt then { bits := f.encodeInt (if neg then f.intRange.1 else f.intRange.2), flags := fOVF ||| fSAT }
    else if f.ieee c.ovmode then
      (if f = .e4m3 then { bits := f.nanBits, flags := fNANR } else { bits := f.infBits neg, flags := fINFR })
    else { bits := f.signBits neg + f.maxBits, flags := fOVF }
  | .nan =>
    if f.isInt then { bits := 0, flags := fINV }
    else match f with
      | .e3m2 | .e2m3 | .e2m1 => { bits := 0, flags := fINV }
      | _ => { bits := f.nanBits, flags := fNANR }

/-- Conversion of a value of one format into another: an infinity stays an infinity in a target that is not narrower, which is one of no fewer bits (R133); an Inf or NaN source raises INFR or NANR in a target that holds it exactly, too (R133 over R117) (DEDUCED, log 56). -/
def NumFmt.convertFrom (f src : NumFmt) (c : RCtx) (v : FVal) : FRes :=
  match v with
  | .inf neg => if f.hasInf && decide (src.width ≤ f.width) then { bits := f.infBits neg, flags := fINFR } else f.convert c v
  | _ => f.convert c v

/-! ## Exact arithmetic -/

/-- An exact result before rounding: a decoded value, a tail below its last bit, and the flags the operation itself raises. -/
structure XRes where
  v : FVal
  sticky : Bool := false
  flags : Flg := 0#9
  deriving DecidableEq, Repr

/-- The invalid operation: canonical NaN with INV and NANR (R133). -/
def XRes.invalid : XRes := { v := .nan, flags := fINV ||| fNANR }

/-- Delivery of an arithmetic result in a floating-point format: Inf and NaN results follow R133 in every OVMODE. -/
def NumFmt.deliver (f : NumFmt) (c : RCtx) (x : XRes) : FRes :=
  match x.v with
  | .zero neg => { bits := f.signBits neg, flags := x.flags }
  | .inf neg => { bits := f.infBits neg, flags := x.flags ||| fINFR }
  | .nan => { bits := f.nanBits, flags := x.flags ||| fNANR }
  | .fin neg m e =>
    let r := f.roundFloat c neg m e x.sticky
    { r with flags := r.flags ||| x.flags }

/-- Sign of a value. -/
def FVal.neg? : FVal → Bool
  | .zero s => s | .fin s _ _ => s | .inf s => s | .nan => false

/-- The value with its sign changed. -/
def FVal.negate : FVal → FVal
  | .zero s => .zero (!s) | .fin s m e => .fin (!s) m e | .inf s => .inf (!s) | .nan => .nan

/-- Exact product (R133: 0 × Inf is invalid). -/
def FVal.mul (x y : FVal) : XRes :=
  let s := x.neg? != y.neg?
  match x, y with
  | .nan, _ | _, .nan => { v := .nan }
  | .inf _, .zero _ | .zero _, .inf _ => .invalid
  | .inf _, _ | _, .inf _ => { v := .inf s }
  | .zero _, _ | _, .zero _ => { v := .zero s }
  | .fin _ m e, .fin _ n f => { v := .fin s (m * n) (e + f) }

/-- Exact sum; equal values of opposite sign give +0, or −0 in mode 3 (R133). -/
def FVal.add (rmode : Nat) (x y : FVal) : XRes :=
  match x, y with
  | .nan, _ | _, .nan => { v := .nan }
  | .inf s, .inf t => if s = t then { v := .inf s } else .invalid
  | .inf s, _ | _, .inf s => { v := .inf s }
  | .zero s, .zero t => { v := .zero (if s = t then s else rmode = 3) }
  | .zero _, y => { v := y }
  | x, .zero _ => { v := x }
  | .fin s m e, .fin t n f =>
    let e0 := min e f
    let i := (FVal.fin s m e).scaled e0 + (FVal.fin t n f).scaled e0
    if i = 0 then { v := .zero (rmode = 3) } else { v := .fin (decide (i < 0)) i.natAbs e0 }

/-- Exact x × y + z, rounded once by the caller; 0 × Inf is invalid even when z is NaN (R148). -/
def FVal.fma (rmode : Nat) (x y z : FVal) : XRes :=
  let p := x.mul y
  if p.flags ≠ 0#9 then p else FVal.add rmode p.v z

/-- Quotient, exact to 96 bits and a sticky tail (R133). -/
def FVal.div (x y : FVal) : XRes :=
  let s := x.neg? != y.neg?
  match x, y with
  | .nan, _ | _, .nan => { v := .nan }
  | .inf _, .inf _ | .zero _, .zero _ => .invalid
  | .inf _, _ => { v := .inf s }
  | _, .inf _ => { v := .zero s }
  | .zero _, _ => { v := .zero s }
  | .fin _ _ _, .zero _ => { v := .inf s, flags := fDZ }
  | .fin _ m e, .fin _ n f =>
    let k : Nat := 96 + Nat.log2 n
    let a := m * 2 ^ k
    { v := .fin s (a / n) (e - f - k), sticky := a % n ≠ 0 }

/-- Integer square root, one bit of the root at a time. -/
def isqrtFrom (n : Nat) : Nat → Nat → Nat
  | 0, r => r
  | k + 1, r => isqrtFrom n k (if (r + 2 ^ k) * (r + 2 ^ k) ≤ n then r + 2 ^ k else r)

/-- Square root, exact to about 96 bits and a sticky tail (R133). -/
def FVal.sqrt (x : FVal) : XRes :=
  match x with
  | .nan => { v := .nan }
  | .zero s => { v := .zero s }
  | .inf s => if s then .invalid else { v := .inf false }
  | .fin s m e =>
    if s then .invalid
    else
      let k : Nat := 192 + (if e % 2 = 0 then 0 else 1)
      let a := m * 2 ^ k
      let r := isqrtFrom a (Nat.log2 a / 2 + 1) 0
      { v := .fin false r ((e - k) / 2), sticky := r * r ≠ a }

/-- Multiplication by 2^k, exact. -/
def FVal.scale (k : Int) : FVal → FVal
  | .fin s m e => .fin s m (e + k)
  | v => v

/-- Order of two non-NaN values, −0 below +0 when `zs` (R148), equal otherwise (R150): x < y. -/
def FVal.lt (zs : Bool) (x y : FVal) : Bool :=
  match x, y with
  | .nan, _ | _, .nan => false
  | .inf s, .inf t => s && !t
  | .inf s, _ => s
  | _, .inf t => !t
  | .zero s, .zero t => zs && s && !t
  | .zero _, .fin t _ _ => !t
  | .fin s _ _, .zero _ => s
  | .fin s m e, .fin t n f =>
    decide ((FVal.fin s m e).scaled (min e f) < (FVal.fin t n f).scaled (min e f))

/-- floor(log2 |x|) of a finite non-zero value. -/
def FVal.log2 : FVal → Int
  | .fin _ m e => (Nat.log2 m : Int) + e
  | _ => 0

/-! ## The stochastic generator (R129) -/

/-- The 16-bit draw of element `e` in lane or slot `l`. -/
def stochDraw (seed : BitVec 64) (count : Word) (l e : Nat) : Nat :=
  let x0 := seed ^^^ (count.setWidth 64 <<< 12) ^^^ (BitVec.ofNat 64 l <<< 3) ^^^ BitVec.ofNat 64 e
  let x1 := (x0 ^^^ (x0 >>> 30)) * 0xbf58476d1ce4e5b9#64
  let x2 := (x1 ^^^ (x1 >>> 27)) * 0x94d049bb133111eb#64
  let x3 := x2 ^^^ (x2 >>> 31)
  (x3 >>> 48).toNat

/-! ## AMAX (R138–R140) -/

/-- Merges one source value into an AMAX register: the F36 magnitude rounded toward +∞ to 25 fraction bits (R138, R139). -/
def amaxFeed (r : Word) (v : FVal) : Word :=
  let seen := setBitAt r 35 true
  match v with
  | .inf _ | .nan => setBitAt seen 34 true
  | .zero _ => seen
  | .fin _ m e =>
    -- F36 exponent field and 25 fraction bits of the magnitude, rounded up
    let top : Int := (Nat.log2 m : Int) + e
    let q := max top (-254) - 25
    let s := (roundAt 2 0 false m e q false).1
    let enc := if s < 2 ^ 25 then s
      else if s < 2 ^ 26 then ((q + 279).toNat + 1) * 2 ^ 25 + (s - 2 ^ 25)
      else ((q + 279).toNat + 2) * 2 ^ 25
    let enc := min enc (511 * 2 ^ 25 - 1)
    if fld r 0 34 < enc then setFld seen 0 34 enc else seen

/-- The magnitude an AMAX register holds. -/
def amaxVal (r : Word) : FVal :=
  let fr := fld r 0 25
  let ex := fld r 25 9
  if ex = 0 then (if fr = 0 then .zero false else .fin false fr (-279))
  else .fin false (2 ^ 25 + fr) ((ex : Int) - 255 - 25)

/-- floor(log2(t / a)) of two positive finite values. -/
def log2Ratio (t a : FVal) : Int :=
  match t, a with
  | .fin _ m e, .fin _ n f =>
    let d := (Nat.log2 m : Int) + e - ((Nat.log2 n : Int) + f)
    -- t < a × 2^d ?
    if magLt m e n (f + d) then d - 1 else d
  | _, _ => 0

/-- Clamps an integer. -/
def clampI (lo hi i : Int) : Int := max lo (min hi i)

/-- T of R140: the target's largest finite magnitude, or its largest positive integer (R154). -/
def NumFmt.largest (f : NumFmt) : FVal :=
  if f.isInt then FVal.ofInt f.intRange.2 0 else f.decode f.maxBits

/-- The exponent chosen by R140 when AMAX has history. -/
def chooseExp (f : NumFmt) (amax : Word) (margin : Nat) : Int :=
  match amaxVal amax with
  | .zero _ => 0
  | a => clampI (-254) 254 (log2Ratio f.largest a - margin)

/-! ## Microscaling quantisation of a block (R125) -/

/-- emax of a Microscaling element format (R125). -/
def mxEmax : NumFmt → Int
  | .e4m3 => 8 | .e5m2 => 15 | .e3m2 => 4 | .e2m3 => 2 | .e2m1 => 2 | _ => 0

/-- One element of a Microscaling block at scale exponent `x`; an overflow saturates (R125). The least MXINT8 value, −128, is in range and stands (DEDUCED, log 56). -/
def mxElem (f : NumFmt) (c : RCtx) (x : Int) (v : FVal) : FRes :=
  match f with
  | .int8 =>
    -- an MXINT8 element is an INT8 value times 2^-6 (R124)
    let r := NumFmt.int8.convert c (v.scale (6 - x))
    { r with flags := r.flags &&& ~~~ fSAT }
  | _ => f.convert { c with ovmode := 1 } (v.scale (-x))

/-- The scale exponent of a block, and none when the block holds a NaN or Inf (R125). A block without an active source is one whose maximum is 0: x = −127 (R153) (DEDUCED, log 56). -/
def mxScale (f : NumFmt) (vs : List FVal) : Option Int :=
  if vs.any (fun v => match v with | .nan => true | .inf _ => true | _ => false) then none
  else
    let fins := vs.filter (fun v => match v with | .fin _ _ _ => true | _ => false)
    match fins with
    | [] => some (-127)
    | v :: r =>
      let top := r.foldl (fun t u => max t u.log2) v.log2
      some (clampI (-127) 127 (top - mxEmax f))

/-- The value of a Microscaling element (R124). -/
def mxDecode (f : NumFmt) (scale bits : Nat) : FVal :=
  if scale % 256 = 255 then .nan
  else (f.decode bits).scale (((scale % 256 : Nat) : Int) - 127 - (if f = .int8 then 6 else 0))

end Sys2Proof.Machine
end

