-- ==== Sys2Proof/Machine/Regs.lean ====
section
/-!
DEFINITION. The register maps: fields with their access codes (R13), the device's shape by variant (R5), the control windows (R69) register by register, and the machine registers (R101, R225).
-/
namespace Sys2Proof.Machine

/-! ## Variants (R5, R254) -/

/-- The two variants of the module. -/
inductive Variant where
  | m9440
  | m9220
  deriving DecidableEq, Repr

/-- Compute dies present. -/
def Variant.dies : Variant → Nat | .m9440 => 4 | .m9220 => 2
/-- Enabled cores. -/
def Variant.cores : Variant → Nat | .m9440 => 192 | .m9220 => 96
/-- DMA channels. -/
def Variant.channels : Variant → Nat | .m9440 => 256 | .m9220 => 128
/-- Hardware semaphores. -/
def Variant.semas : Variant → Nat | .m9440 => 4096 | .m9220 => 2048
/-- Fabric ports. -/
def Variant.ports : Variant → Nat | .m9440 => 10 | .m9220 => 6
/-- Fabric axes. -/
def Variant.axes : Variant → Nat | .m9440 => 5 | .m9220 => 3
/-- CXL root ports. -/
def Variant.cxlPorts : Variant → Nat | .m9440 => 2 | .m9220 => 1
/-- GDDR7 devices. -/
def Variant.gddrs : Variant → Nat | .m9440 => 16 | .m9220 => 8
/-- First byte above the usable GDDR7 (R67). -/
def Variant.gddrEnd : Variant → Nat | .m9440 => 0x1F000000000 | .m9220 => 0xF800000000
/-- Request slots of the hub die, CXL and remote together (R243). -/
def Variant.hubSlots : Variant → Nat | .m9440 => 16384 | .m9220 => 8192

/-- DMA channel `q` is present (R268). -/
def dmaPresent (v : Variant) (q : Nat) : Bool :=
  match v with
  | .m9440 => decide (q < 256)
  | .m9220 => decide (q < 64) || (decide (128 ≤ q) && decide (q < 192))

/-- KIND of DMA channel `q`: 0 die, 1 hub, 2 bulk (R268). -/
def dmaKind (q : Nat) : Nat := if q < 128 then 0 else if q < 160 then 1 else 2

/-- Outstanding lines of a DMA channel by kind (R268). -/
def dmaOutmax (kind : Nat) : Nat := if kind = 0 then 256 else if kind = 1 then 512 else 1024

/-- Vector pipelines per core (MFEAT_CORE.VPIPES). -/
def vpipes : Nat := 2
/-- Vector lanes (MFEAT_CORE.VLANES). -/
def vlanes : Nat := 64
/-- Plates per core (MFEAT_PLATE.PLATES). -/
def nplates : Nat := 16

/-! ## Fields (R10, R13, R14) -/

/-- Access codes of R13. -/
inductive Acc where
  | ro | rw | rw1c | wo | rc | rwl
  deriving DecidableEq, Repr

/-- One field of a register; a written value outside `vmin` … `vmax` is a reserved encoding and leaves the field (R10). -/
structure Field where
  lo : Nat
  len : Nat
  acc : Acc
  reset : Nat := 0
  vmin : Nat := 0
  vmax : Nat := 0xFFFFFFFFF
  deriving DecidableEq, Repr

/-- The map of one register. -/
abbrev RegMap := List Field

/-- The reset value of a register. -/
def RegMap.resetVal (m : RegMap) : Word := m.foldl (fun w f => setFld w f.lo f.len f.reset) 0#36

/-- What a read of a register returns: WO fields read as zero. -/
def RegMap.readVal (m : RegMap) (w : Word) : Word :=
  m.foldl (fun r f => if f.acc = .wo then setFld r f.lo f.len 0 else r) w

/-- A register after a read: RC fields are cleared. -/
def RegMap.afterRead (m : RegMap) (w : Word) : Word :=
  m.foldl (fun r f => if f.acc = .rc then setFld r f.lo f.len 0 else r) w

/-- One field after a write of the whole register. -/
def Field.write (f : Field) (locked : Bool) (v r : Word) : Word :=
  let x := fld v f.lo f.len
  match f.acc with
  | .rw => if f.vmin ≤ x ∧ x ≤ f.vmax then setFld r f.lo f.len x else r
  | .rwl => if f.vmin ≤ x ∧ x ≤ f.vmax ∧ locked = false then setFld r f.lo f.len x else r
  | .rw1c => r &&& ~~~ (v &&& maskOf 36 f.lo f.len)
  | _ => r

/-- A register after a write, by the access codes of its fields (R13). -/
def RegMap.writeVal (m : RegMap) (locked : Bool) (old v : Word) : Word :=
  m.foldl (fun r f => f.write locked v r) old

/-- A read-write field. -/
def fRW (lo len : Nat) (reset : Nat := 0) (vmin : Nat := 0) (vmax : Nat := 0xFFFFFFFFF) : Field := ⟨lo, len, .rw, reset, vmin, vmax⟩
/-- A read-only field. -/
def fRO (lo len : Nat) (reset : Nat := 0) : Field := ⟨lo, len, .ro, reset, 0, 0⟩
/-- A write-one-to-clear field. -/
def fW1C (lo len : Nat) : Field := ⟨lo, len, .rw1c, 0, 0, 0⟩
/-- A write-only field. -/
def fWO (lo len : Nat) : Field := ⟨lo, len, .wo, 0, 0, 0⟩
/-- A read-clear field. -/
def fRC (lo len : Nat) : Field := ⟨lo, len, .rc, 0, 0, 0⟩
/-- A read-write field under a lock bit. -/
def fRWL (lo len : Nat) (reset : Nat := 0) (vmin : Nat := 0) (vmax : Nat := 0xFFFFFFFFF) : Field := ⟨lo, len, .rwl, reset, vmin, vmax⟩

/-! ## The control windows, by offset from 0x201_0000_0000 (R69) -/

/-- Tick unit (02_meridian_tick); TICK_COUNT_LO and _HI are read from the counter. -/
def tickMap (v : Variant) : Nat → RegMap
  | 0x00 => [fRWL 0 2 1 0 2, fRWL 2 8 16 1, fRWL 10 8 50 8 50, fRW 35 1]
  | 0x08 => [fRO 0 2 1, fRO 2 1, fRO 3 1, fRO 4 1, fRO 5 1, fRO 6 8, fRO 14 5, fRO 19 8]
  | 0x10 => [fRWL 0 26 1000000 20000 64000000]
  | 0x18 => [fRO 0 26 1000000]
  | 0x20 => [fRW 0 26 0 20000 64000000, fRW 26 1]
  | 0x28 => [fRW 0 36]
  | 0x40 => [fRO 0 10, fRO 10 26]
  | 0x48 => [fRO 0 14, fRO 14 1]
  | 0x50 => [fW1C 0 8]
  | 0x58 => [fRW 0 8 0 0 (v.cores - 1), fRW 8 1]
  | _ => []

/-- Hardware semaphores (R249, R250). -/
def semMap (v : Variant) (o : Nat) : RegMap :=
  if v.semas ≤ o / 16 then []
  else if o % 16 = 0 then [fRW 0 36] else [fRW 0 8 0 0 (v.cores - 1), fRW 8 1, fRW 9 1, fRW 10 1]

/-- Arbiter `i` is present (R254). -/
def arbPresent (v : Variant) (i : Nat) : Bool :=
  match v with
  | .m9440 => decide (i < 465)
  | .m9220 => decide (i < 32) || (decide (64 ≤ i) && decide (i < 160)) || (decide (256 ≤ i) && decide (i < 352)) ||
      i == 448 || i == 449 || i == 452 || i == 453 || (decide (454 ≤ i) && decide (i < 460)) || i == 464

/-- Number of inputs of arbiter `i` (R254; a DMA port has as many inputs as channels, R268). -/
def arbInputs (v : Variant) (i : Nat) : Nat :=
  if i < 64 then 48 else if i < 256 then 51 else if i < 448 then 2
  else if i < 453 then 32
  else if i = 453 then (match v with | .m9440 => 96 | .m9220 => 32)
  else 13

/-- Input `j` of arbiter `i` is present: a router output has no input from an absent port (R8). -/
def arbInputPresent (v : Variant) (i j : Nat) : Bool :=
  arbPresent v i && decide (j < arbInputs v i) && (decide (i < 454) || decide (j < v.ports) || decide (10 ≤ j))

/-- CARRY at reset (R254). -/
def arbCarry (i : Nat) : Nat := if i < 256 then 1 else if i < 448 then 0 else if i < 454 then 1 else 0

/-- The 2-bit class fields of ARB_CLASS_k of arbiter `i`: fields of absent inputs read zero; input 0 of a local store port reads 3. -/
def arbClassMap (v : Variant) (i k : Nat) : RegMap :=
  ((List.range 16).filter (fun j => arbInputPresent v i (16 * k + j))).map (fun j =>
    if 256 ≤ i ∧ i < 448 ∧ k = 0 ∧ j = 0 then fRO 0 2 3 else fRW (2 * j) 2 1)

/-- Arbiters (11_arbitration). -/
def arbMap (v : Variant) (o : Nat) : RegMap :=
  if 0xF000 ≤ o then
    let k := (o - 0xF000) / 8
    if k < 25 then
      ((List.range 18).filter (fun j =>
        let a := 18 * k + j
        decide (a < v.cores) || (decide (192 ≤ a) && dmaPresent v (a - 192)) || a == 448 || a == 449)).map
        (fun j => fRW (2 * j) 2 (if 18 * k + j = 448 then 2 else if 18 * k + j = 449 then 3 else 1))
    else []
  else
    let i := o / 0x80
    if arbPresent v i then
      match o % 0x80 with
      | 0x00 => [fRW 0 4 7, (if 256 ≤ i ∧ i < 448 then fRO 4 1 0 else fRW 4 1 (arbCarry i)), fRW 5 12 256 1, fRW 17 16 512 1]
      | 0x08 => [fW1C 0 1, fW1C 1 1, fRO 2 1, fRO 3 7, fRO 10 7, fRO 17 12]
      | 0x10 => [fRW 0 12 0 0 (v.semas - 1), fRW 12 1]
      | 0x18 => [fRW 0 7 0 0 (arbInputs v i - 1)]
      | 0x20 => [fRO 0 12, fRO 12 2, fRO 14 1, fRO 15 1]
      | 0x28 => [fRC 0 12, fRC 12 12]
      | 0x40 => arbClassMap v i 0
      | 0x48 => arbClassMap v i 1
      | 0x50 => arbClassMap v i 2
      | 0x58 => arbClassMap v i 3
      | 0x60 => arbClassMap v i 4
      | 0x68 => arbClassMap v i 5
      | _ => []
    else []

/-- Region generation counters (R284). -/
def regionMap (o : Nat) : RegMap :=
  if o % 16 = 0 then [fRW 0 28, fRW 28 5 0 0 27, fRW 33 1] else [fRO 0 36]

/-- Lineage table (R379). -/
def lineageMap (o : Nat) : RegMap :=
  match o % 32 with
  | 0x00 => [fRW 0 32]
  | 0x08 => [fRW 0 24, fRW 24 1, fRW 25 2 0 0 1, fRW 27 1]
  | 0x10 => [fRW 0 36]
  | _ => [fRW 0 36]

/-- Ephemeris controller, sparing and lineage search registers (16_resilience_ephemeris). -/
def ephMap (v : Variant) (o : Nat) : RegMap :=
  match o with
  | 0x00 => [fRW 0 2 0 0 2, fRW 2 1, fRW 3 1]
  | 0x08 => [fRO 0 2, fRO 2 1, fRO 3 1, fRO 4 1, fRO 5 16, fRO 21 8]
  | 0x10 => [fRW 0 14, fRW 14 1]
  | 0x18 => [fRO 0 33]
  | 0x20 => [fRW 0 33]
  | 0x28 => [fWO 0 16, fWO 16 1]
  | 0x30 => [fRW 0 36]
  | 0x38 => [fRW 0 36]
  | 0x40 => [fRW 0 36]
  | 0x48 => [fWO 0 24]
  | 0x50 => [fWO 0 12, fWO 12 2]
  | 0x58 => [fRW 0 1, fRW 1 20 1024 1, fRO 21 15]
  | 0x60 => [fW1C 0 8]
  | 0x68 => [fRW 0 12 0 0 (v.semas - 1), fRW 12 1]
  | 0x70 => [fRW 0 33]
  | _ =>
    if 0x700 ≤ o ∧ o < 0x700 + 8 * v.dies then [fRO 0 3 4, fRO 3 3]
    else if 0x800 ≤ o ∧ o < 0x800 + 8 * v.cores then [fRO 0 6 ((o - 0x800) / 8 % 48), fRO 6 1, fRO 7 1]
    else if 0x1000 ≤ o ∧ o < 0x1000 + 16 * v.cores then
      (if o % 16 = 0 then [fRW 0 32] else [fRO 0 12, fRO 12 1, fRO 13 1])
    else []

/-- Collective engine (14_collectives). -/
def ceMap (v : Variant) (o : Nat) : RegMap :=
  match o with
  | 0x00 => [fRW 0 1]
  | 0x08 => [fRO 0 7, fRO 7 2, fRO 9 1]
  | 0x10 => [fW1C 0 7]
  | 0x18 => [fRW 0 8 0 0 (v.cores - 1), fRW 8 1]
  | _ =>
    if 0x100 ≤ o ∧ o < 0x180 then [fRW 0 12 0 0 (v.semas - 1)]
    else if 0x400 ≤ o ∧ o < 0x800 then
      match o % 0x80 with
      | 0x00 => [fRW 0 4 4 4, fRW 4 4 4 4]
      | 0x08 => [fWO 0 3]
      | 0x10 => [fWO 0 36]
      | 0x18 => [fRO 0 2, fRO 2 1, fRO 3 1, fRO 4 7]
      | 0x20 => [fRW 6 30]
      | 0x28 => [fRW 0 36]
      | 0x30 => [fRO 0 16]
      | 0x38 => [fRW 5 31]
      | 0x40 => [fRW 0 36]
      | 0x48 => [fRO 0 16, fRO 16 1 1]
      | 0x50 => [fRW 0 16]
      | _ => []
    else if 0x1000 ≤ o ∧ o < 0x2000 then
      match o % 0x40 with
      | 0x00 => [fRW 0 5, fRW 5 1, fRW 6 2, fRW 8 1, fRW 9 1, fRW 10 1, fRW 11 1, fRW 12 14]
      | 0x08 => [fRW 0 16 16 1, fRW 16 16 64 1, fRW 32 4 2]
      | 0x10 => [fRW 0 14, fRW 14 14, fRW 28 8 4 1]
      | 0x18 => [fRO 0 13, fRO 13 12, fRO 25 5]
      | 0x20 => [fRO 0 16 16]
      | _ => []
    else if 0x8000 ≤ o ∧ o < 0x10000 then
      match o % 0x40 with
      | 0x00 => [fRW 0 1, fRO 1 1, fRO 2 12, fW1C 14 1]
      | 0x08 => [fRW 0 36]
      | 0x10 => [fRW 0 28]
      | 0x18 => [fRO 0 28]
      | 0x20 => [fRW 0 36]
      | 0x28 => [fWO 0 28]
      | _ => []
    else []

/-- Tensor cache and controllers of one compute die (10_memory_system). -/
def dieMap (o : Nat) : RegMap :=
  match o with
  | 0x0000 => [fRW 0 3 4, fRW 3 4 8]
  | 0x0008 => [fRW 0 2 0 0 2, fWO 2 1, fRO 3 1, fW1C 4 1]
  | 0x0010 => [fRW 0 28]
  | 0x0018 => [fRW 0 28]
  | 0x2000 => [fW1C 0 1, fRO 1 3, fRO 4 2, fRO 6 4, fRO 10 2, fW1C 12 1]
  | 0x2008 => [fRO 0 36]
  | 0x2010 => [fRO 0 8]
  | 0x2018 => [fRC 0 12, fRC 12 12, fRC 24 12]
  | _ =>
    if 0x100 ≤ o ∧ o < 0x500 then
      (if o % 16 = 0 then [fRW 0 28, fRW 28 3, fRW 31 1] else [fRW 0 28])
    else if 0x1000 ≤ o ∧ o < 0x1080 then
      match o % 0x20 with
      | 0x00 => [fRW 0 12 56 1 3584]
      | 0x08 => [fRO 0 12, fRO 12 6, fRO 18 12]
      | 0x10 => [fRC 0 36]
      | _ => []
    else []

/-- DMA channels, 4 KiB each (R287); DMA_CFG.SEM takes any number, and SEM_INC on an absent semaphore is ignored under R8 (DESIGN CHOICE, log 33). -/
def dmaMap (v : Variant) (o : Nat) : RegMap :=
  let q := o / 0x1000
  if dmaPresent v q = false then []
  else
    match o % 0x1000 with
    | 0x00 => [fRW 0 2 1 0 2, fRW 2 1, fRW 3 12, fRW 15 4 4 4, fRW 19 4 4 4]
    | 0x08 => [fWO 0 6]
    | 0x10 => [fWO 0 36]
    | 0x18 => [fRO 0 3, fRO 3 1, fRO 4 1, fRO 5 5, fRO 10 1]
    | 0x20 => [fRW 6 30]
    | 0x28 => [fRW 0 36]
    | 0x30 => [fRO 0 16]
    | 0x38 => [fRW 5 31]
    | 0x40 => [fRW 0 36]
    | 0x48 => [fRO 0 16, fRO 16 1 1]
    | 0x50 => [fRW 0 16]
    | 0x58 => [fRC 0 36]
    | 0x60 => [fRO 0 36]
    | 0x68 => [fRO 0 36]
    | 0x70 => [fRO 0 2, fRO 2 2, fRO 4 3, fRO 7 1]
    | 0x78 => [fRC 0 24, fRC 24 12]
    | 0x80 => [fRO 0 2 (dmaKind q), fRO 2 1 1, fRO 3 11 (dmaOutmax (dmaKind q)),
               fRO 14 3 (if dmaKind q = 0 then q / 32 else 0)]
    | 0x88 => [fRW 0 36]
    | 0x90 => [fRW 0 28]
    | 0x98 => [fRW 0 36]
    | _ => []

/-- Fabric ports and routing (R321). -/
def fabMap (v : Variant) (o : Nat) : RegMap :=
  match o with
  | 0x00 => [fRW 0 1, fRW 1 1, fWO 2 1, fWO 3 1, fRW 35 1]
  | 0x08 => [fRO 0 3, fRO 3 1, fRO 4 1, fRO 5 4]
  | 0x10 => [fRO 0 14, fRO 14 1]
  | 0x18 => [fRWL 0 10]
  | 0x20 => [fRWL 0 20]
  | 0x28 => [fRWL 0 1, fRWL 1 8 64 1, fRWL 9 5 4 2, fRWL 14 8 16 1, fRWL 22 4 8 1, fRWL 26 8 64 1]
  | 0x30 => [fRWL 0 12 1024 1, fRWL 12 12 256 1, fRWL 24 4 4 1, fRWL 28 8 20 1]
  | 0x40 => [fRO 0 36]
  | 0x48 => [fRO 0 14, fRO 14 5, fRO 19 4 15, fRO 23 1]
  | 0x50 => [fRO 0 10, fRO 10 10]
  | 0x58 => [fRW 0 27, fRW 27 1]
  | 0x60 => [fWO 0 14, fWO 14 1]
  | 0x68 => [fWO 0 14, fWO 14 3]
  | 0x70 => [fW1C 0 10]
  | 0x78 => [fRW 0 8 0 0 (v.cores - 1), fRW 8 1]
  | _ =>
    if 0x200 ≤ o ∧ o < 0x200 + 0x40 * v.ports then
      match o % 0x40 with
      | 0x00 => [fRW 0 1, fWO 1 1]
      | 0x08 => [fRO 0 3, fRO 3 3, fRO 6 3, fRC 9 8]
      | 0x10 => [fRO 0 14, fRO 14 1]
      | 0x18 => [fRO 0 20]
      | 0x20 => [fRC 0 12, fRC 12 12, fRC 24 12]
      | _ => []
    else []

/-- Core mailboxes, 256 bytes per core (R251). -/
def cmbxMap (v : Variant) (o : Nat) : RegMap :=
  if v.cores ≤ o / 0x100 then []
  else
    match o % 0x20 with
    | 0x00 => [fRW 0 36]
    | 0x08 => [fW1C 0 1, fW1C 1 1, fRW 2 1, fRW 3 1]
    | 0x10 => [fWO 0 36]
    | _ => []

/-- Flow contexts, 64 bytes each (R316). -/
def flowMap (o : Nat) : RegMap :=
  match o % 0x40 with
  | 0x00 => [fRO 0 3, fRW 3 2 0 0 2, fRW 5 1, fRO 6 4, fRO 10 8, fRW 18 1]
  | 0x08 => [fRW 0 14, fRW 14 14]
  | 0x10 => [fRO 0 16, fRO 16 16]
  | 0x18 => [fRO 0 13, fRW 13 13 256 1, fRO 26 10]
  | 0x20 => [fRO 0 36]
  | 0x28 => [fRO 0 4 15, fRO 4 5, fRO 9 1, fRO 10 1]
  | 0x30 => [fRC 0 18, fRC 18 18]
  | _ => []

/-- The offset lies in a block of R69's table. -/
def ctlInBlock (o : Nat) : Bool :=
  decide (o < 0xC0000) || (decide (0x100000 ≤ o) && decide (o < 0x210000)) ||
  (decide (0x220000 ≤ o) && decide (o < 0x230000)) || (decide (0x300000 ≤ o) && decide (o < 0x400000))

/-- The register at window offset `o` belongs to a unit that is absent on the variant (R8). -/
def ctlAbsent (v : Variant) (o : Nat) : Bool :=
  if o < 0x10000 then false
  else if o < 0x20000 then decide (v.semas ≤ (o - 0x10000) / 16)
  else if o < 0x30000 then decide (o < 0x2E880) && !arbPresent v ((o - 0x20000) / 0x80)
  else if o < 0x80000 then (decide (0x61000 ≤ o) && decide (o < 0x61C00) && decide (v.cores ≤ (o - 0x61000) / 16))
  else if o < 0xC0000 then decide (v.dies ≤ (o - 0x80000) / 0x10000)
  else if o < 0x200000 then decide (0x100000 ≤ o) && !dmaPresent v ((o - 0x100000) / 0x1000)
  else if o < 0x210000 then decide (0x200200 ≤ o) && decide (o < 0x200480) && decide (v.ports ≤ (o - 0x200200) / 0x40)
  else decide (0x220000 ≤ o) && decide (o < 0x22C000) && decide (v.cores ≤ (o - 0x220000) / 0x100)

/-- The map of the register at window offset `o`; an offset that no chapter defines has no field and reads as zero (R69). -/
def ctlMap (v : Variant) (o : Nat) : RegMap :=
  if o % 8 ≠ 0 then []
  else if o < 0x10000 then tickMap v o
  else if o < 0x20000 then semMap v (o - 0x10000)
  else if o < 0x30000 then arbMap v (o - 0x20000)
  else if o < 0x40000 then regionMap (o - 0x30000)
  else if o < 0x60000 then lineageMap (o - 0x40000)
  else if o < 0x70000 then ephMap v (o - 0x60000)
  else if o < 0x80000 then ceMap v (o - 0x70000)
  else if o < 0xC0000 then (if (o - 0x80000) / 0x10000 < v.dies then dieMap ((o - 0x80000) % 0x10000) else [])
  else if 0x100000 ≤ o ∧ o < 0x200000 then dmaMap v (o - 0x100000)
  else if 0x200000 ≤ o ∧ o < 0x210000 then fabMap v (o - 0x200000)
  else if 0x220000 ≤ o ∧ o < 0x230000 then cmbxMap v (o - 0x220000)
  else if 0x300000 ≤ o ∧ o < 0x400000 then flowMap (o - 0x300000)
  else []

/-- The reset value of the register at window offset `o`. -/
def ctlReset (v : Variant) (o : Nat) : Word := (ctlMap v o).resetVal

/-! ## Machine registers (R101, R225) -/

/-- The map of the per-core machine register of a number; identification registers and MXROOT stand elsewhere. -/
def mregMap : Nat → RegMap
  | 0x011 => [fRO 0 1, fW1C 1 1, fRO 2 1, fRW 3 1, fRO 4 1, fRC 5 8, fRO 13 12]
  | 0x013 => [fRW 1 11, fRW 14 1, fRW 16 1]
  | 0x014 => [fRW 0 32]
  | 0x015 => [fRW 0 32]
  | 0x016 => [fRWL 0 2 1 1 2, fRWL 35 1]
  | 0x017 => [fRO 0 8, fRO 8 2, fRO 10 1, fRO 11 1]
  | 0x018 => [fRW 0 6, fRW 6 6, fRW 12 6 4 1]
  | 0x019 => [fRO 0 1, fRC 1 8]
  | 0x01A => [fRO 0 36]
  | 0x01B => [fRO 0 36]
  | 0x01C => [fRO 0 36]
  | 0x01D => [fRO 0 36]
  | 0x01E => [fRO 0 36]
  | 0x01F => [fRW 0 8, fRW 8 1]
  | 0x02E => [fRW 0 28]
  | n => if 0x020 ≤ n ∧ n ≤ 0x031 then [fRW 0 36] else []

/-- The reset value of a per-core machine register. -/
def mregReset (n : Nat) : Word := (mregMap n).resetVal

/-- The identification registers 0x000–0x00F (R57–R60). -/
def idReg (v : Variant) : Nat → Word
  | 0 => word (2 * 2 ^ 8 + (match v with | .m9440 => 0o4440 | .m9220 => 0o2220) * 2 ^ 16 + 2 ^ 28)
  | 1 => word (vlanes + vpipes * 2 ^ 9 + 64 * 2 ^ 12 + 64 * 2 ^ 21 + 7 * 2 ^ 30)
  | 2 => word (nplates + 64 * 2 ^ 6 + 64 * 2 ^ 14 + 15 * 2 ^ 22 + 2 ^ 26 + 2 ^ 27)
  | 3 => word (768 + 64 * 2 ^ 10 + 64 * 2 ^ 18 + 7 * 2 ^ 26 + 16 * 2 ^ 29)
  | 4 => word (v.dies + v.cores * 2 ^ 4 + v.axes * 2 ^ 13 + v.ports * 2 ^ 16 + v.cxlPorts * 2 ^ 20 + v.gddrs * 2 ^ 22 +
      (match v with | .m9440 => 2 ^ 27 | .m9220 => 0))
  | 5 => word (v.channels + v.semas * 2 ^ 9)
  | 6 => word 0o777
  | _ => 0#36

/-! ## BAR0 (R401) -/

/-- The reset value of the BAR0 register at an offset: PRIV of mailboxes 0–7, RC NO_COMMAND, and the mask bit of every MSI-X vector. -/
def bar0Reset (o : Nat) : Reg32 :=
  if 0x10000 ≤ o ∧ o < 0x14000 then
    if o % 0x100 = 0x04 then (if (o - 0x10000) / 0x100 < 8 then 0x10#32 else 0#32)
    else if o % 0x100 = 0xC0 then 0x20000#32
    else 0#32
  else if 0x20000 ≤ o ∧ o < 0x28000 ∧ o % 16 = 12 then 1#32
  else 0#32

end Sys2Proof.Machine
end

