-- ==== Sys2Proof/Machine/Encoding.lean ====
section
/-!
DEFINITION. The bytes of instructions (R84–R93, R100, R147, R168, R189): prefixes, the four opcode maps, operand bytes, and the decoder, which reads bytes from the first to the last and answers the command that they encode or the offset at which decoding fails.
-/
namespace Sys2Proof.Machine

/-! ## Operand bytes (R88, R89, R144, R169) -/

/-- What the bytes of an operand hold. A `byte` operand is an imm8 or a control byte that stays within a range, which may depend on the FW code and on the operands before it. -/
inductive Opd where
  | w | v | a | m | p
  | imm
  | num16
  | byte (ok : Nat → List Nat → Nat → Bool)

/-- A row of an opcode map: what the opcode permits, its operands, and the command it encodes from the operands' values and the immediate. -/
structure OpRow where
  /-- FW codes permitted. -/
  fws : List Nat := []
  /-- FW selects a lane format, code 0 without the prefix (R119, R145). -/
  lane : Bool := false
  maskOk : Bool := false
  psoOk : Bool := false
  /-- LIMM 0xDB is permitted: LIA and ADDAI (R89). -/
  pairImm : Bool := false
  opds : List Opd
  build : Issue → List Nat → Imm → Instr

/-- A five-bit register number among the operands' values. -/
def r5 (b : List Nat) (i : Nat) : Reg := BitVec.ofNat 5 (b.getD i 0)
/-- An a register. -/
def r4 (b : List Nat) (i : Nat) : AReg := BitVec.ofNat 4 (b.getD i 0)
/-- An m register. -/
def r3 (b : List Nat) (i : Nat) : MReg := BitVec.ofNat 3 (b.getD i 0)
/-- A byte. -/
def r8 (b : List Nat) (i : Nat) : Byte := BitVec.ofNat 8 (b.getD i 0)
/-- A num16. -/
def r16 (b : List Nat) (i : Nat) : BitVec 16 := BitVec.ofNat 16 (b.getD i 0)

/-- Every lane format; also the codes that Bits accepts (R145). -/
def laneAll : List Nat := [0, 1, 2, 3, 4, 5]

/-- The lane format of an FW code (R119). -/
def laneOf : Nat → NumFmt
  | 1 => .f18 | 2 => .int36 | 3 => .int18 | 4 => .uint36 | 5 => .uint18 | _ => .f36

/-- Bits of an element of a lane format. -/
def laneWidth (fw : Nat) : Nat := (laneOf fw).width

/-- A fence byte is legal (R103). -/
def fenceOk (b : Nat) : Bool := b < 64 && (b % 16 != 0 || (b / 32 == 1 && b / 16 % 2 == 0))

/-- c1 of VCVTW or VCVTN is legal under a lane format (R151). -/
def cvtFormatOk (fw : Nat) (narrowing : Bool) (c1 : Nat) : Bool :=
  match NumFmt.ofCode c1 with
  | none => false
  | some nf => !(nf == .e8m0 && (narrowing || (laneOf fw).isInt)) && nf.perSlot % (laneOf fw).perSlot == 0

/-- c2 of a conversion is legal after its c1 (R151, R152). -/
def cvtPartOk (fw c1 c2 : Nat) : Bool :=
  c2 < 128 && c2 / 8 % 4 < vpipes && c2 % 8 < ((NumFmt.ofCode c1).getD .f36).perSlot / (laneOf fw).perSlot

/-- Formats that VMXQ produces (R153). -/
def mxqFormats : List Nat := [1, 2, 5, 6, 7, 8]

/-! ## The opcode maps -/

/-- The primary map (R93), part 1. -/
def primaryMap1 : List (Nat × OpRow) := [
  (0x00, { opds := [], build := fun x _ _ => .nop x }),
  (0x01, { opds := [.w, .w], build := fun x b _ => .mov x (r5 b 0) (r5 b 1) }),
  (0x02, { opds := [.w, .imm], build := fun x b i => .li x (r5 b 0) i }),
  (0x03, { opds := [.a, .imm], pairImm := true, build := fun x b i => .lia x (r4 b 0) i }),
  (0x04, { opds := [.a, .a], build := fun x b _ => .mova x (r4 b 0) (r4 b 1) }),
  (0x05, { opds := [.w, .a], build := fun x b _ => .getlo x (r5 b 0) (r4 b 1) }),
  (0x06, { opds := [.w, .a], build := fun x b _ => .gethi x (r5 b 0) (r4 b 1) }),
  (0x07, { opds := [.a, .w], build := fun x b _ => .setlo x (r4 b 0) (r5 b 1) }),
  (0x08, { opds := [.a, .w], build := fun x b _ => .sethi x (r4 b 0) (r5 b 1) }),
  (0x09, { opds := [.a, .a, .w], build := fun x b _ => .adda x (r4 b 0) (r4 b 1) (r5 b 2) }),
  (0x0A, { opds := [.a, .a, .imm], pairImm := true, build := fun x b i => .addai x (r4 b 0) (r4 b 1) i }),
  (0x0B, { opds := [.a, .a], build := fun x b _ => .cmpa x (r4 b 0) (r4 b 1) }),
  (0x10, { opds := [.w, .w, .w], fws := [1], build := fun x b _ => .add x (r5 b 0) (r5 b 1) (r5 b 2) }),
  (0x11, { opds := [.w, .w, .w], build := fun x b _ => .addc x (r5 b 0) (r5 b 1) (r5 b 2) }),
  (0x12, { opds := [.w, .w, .w], fws := [1], build := fun x b _ => .sub x (r5 b 0) (r5 b 1) (r5 b 2) }),
  (0x13, { opds := [.w, .w, .w], build := fun x b _ => .subb x (r5 b 0) (r5 b 1) (r5 b 2) }),
  (0x14, { opds := [.w, .w, .imm], build := fun x b i => .addi x (r5 b 0) (r5 b 1) i }),
  (0x15, { opds := [.w, .w], build := fun x b _ => .neg x (r5 b 0) (r5 b 1) }),
  (0x16, { opds := [.w, .w], fws := [1], build := fun x b _ => .cmp x (r5 b 0) (r5 b 1) }),
  (0x17, { opds := [.w, .imm], build := fun x b i => .cmpi x (r5 b 0) i }),
  (0x18, { opds := [.w, .w, .w], build := fun x b _ => .and_ x (r5 b 0) (r5 b 1) (r5 b 2) }),
  (0x19, { opds := [.w, .w, .w], build := fun x b _ => .or_ x (r5 b 0) (r5 b 1) (r5 b 2) }),
  (0x1A, { opds := [.w, .w, .w], build := fun x b _ => .xor_ x (r5 b 0) (r5 b 1) (r5 b 2) }),
  (0x1B, { opds := [.w, .w, .w], build := fun x b _ => .andn x (r5 b 0) (r5 b 1) (r5 b 2) }),
  (0x1C, { opds := [.w, .w], build := fun x b _ => .not_ x (r5 b 0) (r5 b 1) }),
  (0x1D, { opds := [.w, .w, .imm], build := fun x b i => .andi x (r5 b 0) (r5 b 1) i }),
  (0x1E, { opds := [.w, .w, .imm], build := fun x b i => .ori x (r5 b 0) (r5 b 1) i }),
  (0x1F, { opds := [.w, .w, .imm], build := fun x b i => .xori x (r5 b 0) (r5 b 1) i }),
  (0x20, { opds := [.w, .w, .w], build := fun x b _ => .shl x (r5 b 0) (r5 b 1) (r5 b 2) }),
  (0x21, { opds := [.w, .w, .w], build := fun x b _ => .shr x (r5 b 0) (r5 b 1) (r5 b 2) }),
  (0x22, { opds := [.w, .w, .w], build := fun x b _ => .sar x (r5 b 0) (r5 b 1) (r5 b 2) }),
  (0x23, { opds := [.w, .w, .w], build := fun x b _ => .rol x (r5 b 0) (r5 b 1) (r5 b 2) })]

/-- The primary map (R93), part 2. -/
def primaryMap2 : List (Nat × OpRow) := [
  (0x24, { opds := [.w, .w, .w], build := fun x b _ => .ror x (r5 b 0) (r5 b 1) (r5 b 2) }),
  (0x25, { opds := [.w, .w, .byte (fun _ _ b => b ≤ 35)], build := fun x b _ => .shli x (r5 b 0) (r5 b 1) (r8 b 2) }),
  (0x26, { opds := [.w, .w, .byte (fun _ _ b => b ≤ 35)], build := fun x b _ => .shri x (r5 b 0) (r5 b 1) (r8 b 2) }),
  (0x27, { opds := [.w, .w, .byte (fun _ _ b => b ≤ 35)], build := fun x b _ => .sari x (r5 b 0) (r5 b 1) (r8 b 2) }),
  (0x28, { opds := [.w, .w, .byte (fun _ _ b => b ≤ 35)], build := fun x b _ => .roli x (r5 b 0) (r5 b 1) (r8 b 2) }),
  (0x29, { opds := [.w, .w, .byte (fun _ _ b => b ≤ 35)], build := fun x b _ => .rori x (r5 b 0) (r5 b 1) (r8 b 2) }),
  (0x30, { opds := [.w, .w, .w], fws := [1], build := fun x b _ => .adds x (r5 b 0) (r5 b 1) (r5 b 2) }),
  (0x31, { opds := [.w, .w, .w], fws := [1], build := fun x b _ => .subs x (r5 b 0) (r5 b 1) (r5 b 2) }),
  (0x32, { opds := [.w, .w, .w], build := fun x b _ => .addus x (r5 b 0) (r5 b 1) (r5 b 2) }),
  (0x33, { opds := [.w, .w, .w], build := fun x b _ => .subus x (r5 b 0) (r5 b 1) (r5 b 2) }),
  (0x34, { opds := [.w, .w, .byte (fun _ _ b => b ≤ 35)], fws := [1], build := fun x b _ => .sarr x (r5 b 0) (r5 b 1) (r8 b 2) }),
  (0x35, { opds := [.w, .w, .byte (fun _ _ b => 1 ≤ b && b ≤ 35)], build := fun x b _ => .satn x (r5 b 0) (r5 b 1) (r8 b 2) }),
  (0x36, { opds := [.w, .w, .byte (fun _ _ b => 1 ≤ b && b ≤ 35)], build := fun x b _ => .satun x (r5 b 0) (r5 b 1) (r8 b 2) }),
  (0x37, { opds := [.w, .w], build := fun x b _ => .abs x (r5 b 0) (r5 b 1) }),
  (0x38, { opds := [.w, .w, .w], fws := [1], build := fun x b _ => .min x (r5 b 0) (r5 b 1) (r5 b 2) }),
  (0x39, { opds := [.w, .w, .w], fws := [1], build := fun x b _ => .max x (r5 b 0) (r5 b 1) (r5 b 2) }),
  (0x3A, { opds := [.w, .w, .w], build := fun x b _ => .minu x (r5 b 0) (r5 b 1) (r5 b 2) }),
  (0x3B, { opds := [.w, .w, .w], build := fun x b _ => .maxu x (r5 b 0) (r5 b 1) (r5 b 2) }),
  (0x40, { opds := [.w, .w], build := fun x b _ => .clz x (r5 b 0) (r5 b 1) }),
  (0x41, { opds := [.w, .w], build := fun x b _ => .ctz x (r5 b 0) (r5 b 1) }),
  (0x42, { opds := [.w, .w], build := fun x b _ => .popc x (r5 b 0) (r5 b 1) }),
  (0x43, { opds := [.w, .w], build := fun x b _ => .par36 x (r5 b 0) (r5 b 1) }),
  (0x44, { opds := [.w, .w], build := fun x b _ => .par18 x (r5 b 0) (r5 b 1) }),
  (0x45, { opds := [.w, .w], build := fun x b _ => .brev36 x (r5 b 0) (r5 b 1) }),
  (0x46, { opds := [.w, .w], build := fun x b _ => .brev18 x (r5 b 0) (r5 b 1) }),
  (0x47, { opds := [.w, .w], build := fun x b _ => .brev8 x (r5 b 0) (r5 b 1) }),
  (0x48, { opds := [.w, .w, .byte (fun _ _ b => b ≤ 35), .byte (fun _ l b => 1 ≤ b && l.getD 2 0 + b ≤ 36)], build := fun x b _ => .ext x (r5 b 0) (r5 b 1) (r8 b 2) (r8 b 3) }),
  (0x49, { opds := [.w, .w, .byte (fun _ _ b => b ≤ 35), .byte (fun _ l b => 1 ≤ b && l.getD 2 0 + b ≤ 36)], build := fun x b _ => .extu x (r5 b 0) (r5 b 1) (r8 b 2) (r8 b 3) }),
  (0x4A, { opds := [.w, .w, .byte (fun _ _ b => b ≤ 35), .byte (fun _ l b => 1 ≤ b && l.getD 2 0 + b ≤ 36)], build := fun x b _ => .ins x (r5 b 0) (r5 b 1) (r8 b 2) (r8 b 3) }),
  (0x4B, { opds := [.w, .w], build := fun x b _ => .sext18 x (r5 b 0) (r5 b 1) }),
  (0x4C, { opds := [.w, .w], build := fun x b _ => .sext8 x (r5 b 0) (r5 b 1) }),
  (0x50, { opds := [.w, .w], build := fun x b _ => .crc32cB x (r5 b 0) (r5 b 1) })]

/-- The primary map (R93), part 3. -/
def primaryMap3 : List (Nat × OpRow) := [
  (0x51, { opds := [.w, .w], build := fun x b _ => .crc32cW x (r5 b 0) (r5 b 1) }),
  (0x52, { opds := [.w, .w], build := fun x b _ => .crc16B x (r5 b 0) (r5 b 1) }),
  (0x53, { opds := [.w, .w], build := fun x b _ => .crc16W x (r5 b 0) (r5 b 1) }),
  (0x60, { opds := [.w, .a, .imm], build := fun x b i => .ldw x (r5 b 0) (r4 b 1) i }),
  (0x61, { opds := [.w, .a, .imm], build := fun x b i => .ldh x (r5 b 0) (r4 b 1) i }),
  (0x62, { opds := [.w, .a, .imm], build := fun x b i => .ldhu x (r5 b 0) (r4 b 1) i }),
  (0x63, { opds := [.w, .a, .imm], build := fun x b i => .ldb x (r5 b 0) (r4 b 1) i }),
  (0x64, { opds := [.w, .a, .imm], build := fun x b i => .ldbs x (r5 b 0) (r4 b 1) i }),
  (0x65, { opds := [.w, .a, .imm], build := fun x b i => .stw x (r5 b 0) (r4 b 1) i }),
  (0x66, { opds := [.w, .a, .imm], build := fun x b i => .sth x (r5 b 0) (r4 b 1) i }),
  (0x67, { opds := [.w, .a, .imm], build := fun x b i => .stb x (r5 b 0) (r4 b 1) i }),
  (0x68, { opds := [.a, .a, .imm], build := fun x b i => .lda x (r4 b 0) (r4 b 1) i }),
  (0x69, { opds := [.a, .a, .imm], build := fun x b i => .sta x (r4 b 0) (r4 b 1) i }),
  (0x6A, { opds := [.w, .a, .w], build := fun x b _ => .ldwx x (r5 b 0) (r4 b 1) (r5 b 2) }),
  (0x6B, { opds := [.w, .a, .w], build := fun x b _ => .stwx x (r5 b 0) (r4 b 1) (r5 b 2) }),
  (0x6C, { opds := [.w], build := fun x b _ => .push x (r5 b 0) }),
  (0x6D, { opds := [.w], build := fun x b _ => .pop x (r5 b 0) }),
  (0x6E, { opds := [.a], build := fun x b _ => .pusha x (r4 b 0) }),
  (0x6F, { opds := [.a], build := fun x b _ => .popa x (r4 b 0) }),
  (0x70, { opds := [.w, .a, .w], build := fun x b _ => .amoadd x (r5 b 0) (r4 b 1) (r5 b 2) }),
  (0x71, { opds := [.w, .a, .w], build := fun x b _ => .amoswap x (r5 b 0) (r4 b 1) (r5 b 2) }),
  (0x72, { opds := [.w, .a, .w], build := fun x b _ => .cas x (r5 b 0) (r4 b 1) (r5 b 2) }),
  (0x78, { opds := [.w, .w], build := fun x b _ => .mul x (r5 b 0) (r5 b 1) }),
  (0x79, { opds := [.w, .w], build := fun x b _ => .mulu x (r5 b 0) (r5 b 1) }),
  (0x7A, { opds := [.w, .w], build := fun x b _ => .div x (r5 b 0) (r5 b 1) }),
  (0x7B, { opds := [.w, .w], build := fun x b _ => .divu x (r5 b 0) (r5 b 1) }),
  (0x7C, { opds := [.w], build := fun x b _ => .rdmpl x (r5 b 0) }),
  (0x7D, { opds := [.w], build := fun x b _ => .rdmph x (r5 b 0) }),
  (0x7E, { opds := [.w], build := fun x b _ => .rdmq x (r5 b 0) }),
  (0x7F, { opds := [.w], build := fun x b _ => .rdmrem x (r5 b 0) }),
  (0x80, { opds := [.w], build := fun x b _ => .wrmpl x (r5 b 0) }),
  (0x81, { opds := [.w], build := fun x b _ => .wrmph x (r5 b 0) })]

/-- The primary map (R93), part 4. -/
def primaryMap4 : List (Nat × OpRow) := [
  (0x82, { opds := [.w], build := fun x b _ => .wrmq x (r5 b 0) }),
  (0x83, { opds := [.w], build := fun x b _ => .wrmrem x (r5 b 0) }),
  (0x90, { opds := [.imm], build := fun x _ i => .b x i }),
  (0x91, { opds := [.byte (fun _ _ b => b < 15), .imm], build := fun x b i => .bc x (r8 b 0) i }),
  (0x92, { opds := [.a], build := fun x b _ => .br x (r4 b 0) }),
  (0x93, { opds := [.imm], build := fun x _ i => .call x i }),
  (0x94, { opds := [.a], build := fun x b _ => .callr x (r4 b 0) }),
  (0x95, { opds := [], build := fun x _ _ => .ret x }),
  (0x96, { opds := [.w, .imm], build := fun x b i => .cbz x (r5 b 0) i }),
  (0x97, { opds := [.w, .imm], build := fun x b i => .cbnz x (r5 b 0) i })]

/-- The primary map (R93). -/
def primaryMap : List (Nat × OpRow) := primaryMap1 ++ primaryMap2 ++ primaryMap3 ++ primaryMap4

/-- The secondary system map, after 0xEC (R100), part 1. -/
def systemMap1 : List (Nat × OpRow) := [
  (0x01, { opds := [], build := fun x _ _ => .eret x }),
  (0x02, { opds := [], build := fun x _ _ => .brk x }),
  (0x03, { opds := [], build := fun x _ _ => .waite x }),
  (0x08, { opds := [.w], build := fun x b _ => .rdpsw x (r5 b 0) }),
  (0x09, { opds := [.w], build := fun x b _ => .wrpsw x (r5 b 0) }),
  (0x0A, { opds := [.w], build := fun x b _ => .rdaf x (r5 b 0) }),
  (0x0B, { opds := [.w], build := fun x b _ => .wraf x (r5 b 0) }),
  (0x0C, { opds := [.w, .byte (fun _ _ b => b < vpipes)], build := fun x b _ => .rdamax x (r5 b 0) (r8 b 1) }),
  (0x0D, { opds := [.a], build := fun x b _ => .rdcsp x (r4 b 0) }),
  (0x0E, { opds := [.a], build := fun x b _ => .wrcsp x (r4 b 0) }),
  (0x0F, { opds := [.w], build := fun x b _ => .rdafp x (r5 b 0) }),
  (0x10, { opds := [.byte (fun _ _ b => fenceOk b)], build := fun x b _ => .fence x (r8 b 0) }),
  (0x11, { opds := [.w], build := fun x b _ => .wrafp x (r5 b 0) }),
  (0x18, { opds := [], build := fun x _ _ => .xinvAll x }),
  (0x19, { opds := [.a], build := fun x b _ => .xinv x (r4 b 0) }),
  (0x20, { opds := [], build := fun x _ _ => .fdone x }),
  (0x30, { opds := [.w, .num16], build := fun x b _ => .rdm x (r5 b 0) (r16 b 1) }),
  (0x31, { opds := [.num16, .w], build := fun x b _ => .wrm x (r16 b 0) (r5 b 1) })]

/-- The secondary system map, after 0xEC (R100). -/
def systemMap : List (Nat × OpRow) := systemMap1

/-- The secondary vector map, after 0xE4 (R147), part 1. -/
def vectorMap1 : List (Nat × OpRow) := [
  (0x00, { opds := [.v, .v, .v], fws := laneAll, lane := true, maskOk := true, build := fun x b _ => .vadd x (r5 b 0) (r5 b 1) (r5 b 2) }),
  (0x01, { opds := [.v, .v, .v], fws := laneAll, lane := true, maskOk := true, build := fun x b _ => .vsub x (r5 b 0) (r5 b 1) (r5 b 2) }),
  (0x02, { opds := [.v, .v, .v], fws := laneAll, lane := true, maskOk := true, build := fun x b _ => .vmul x (r5 b 0) (r5 b 1) (r5 b 2) }),
  (0x03, { opds := [.v, .v, .v], fws := [0, 1], lane := true, maskOk := true, build := fun x b _ => .vfma x (r5 b 0) (r5 b 1) (r5 b 2) }),
  (0x04, { opds := [.v, .v, .v], fws := [0, 1], lane := true, maskOk := true, build := fun x b _ => .vfnma x (r5 b 0) (r5 b 1) (r5 b 2) }),
  (0x05, { opds := [.v, .v, .v], fws := laneAll, lane := true, maskOk := true, build := fun x b _ => .vmin x (r5 b 0) (r5 b 1) (r5 b 2) }),
  (0x06, { opds := [.v, .v, .v], fws := laneAll, lane := true, maskOk := true, build := fun x b _ => .vmax x (r5 b 0) (r5 b 1) (r5 b 2) }),
  (0x07, { opds := [.v, .v], fws := [0, 1, 2, 3], lane := true, maskOk := true, build := fun x b _ => .vabs x (r5 b 0) (r5 b 1) }),
  (0x08, { opds := [.v, .v], fws := [0, 1, 2, 3], lane := true, maskOk := true, build := fun x b _ => .vneg x (r5 b 0) (r5 b 1) }),
  (0x09, { opds := [.v, .v, .v], fws := [0, 1], lane := true, maskOk := true, build := fun x b _ => .vdiv x (r5 b 0) (r5 b 1) (r5 b 2) }),
  (0x0A, { opds := [.v, .v], fws := [0, 1], lane := true, maskOk := true, build := fun x b _ => .vsqrt x (r5 b 0) (r5 b 1) }),
  (0x10, { opds := [.v, .v, .v], fws := [2, 3, 4, 5], lane := true, maskOk := true, build := fun x b _ => .vadds x (r5 b 0) (r5 b 1) (r5 b 2) }),
  (0x11, { opds := [.v, .v, .v], fws := [2, 3, 4, 5], lane := true, maskOk := true, build := fun x b _ => .vsubs x (r5 b 0) (r5 b 1) (r5 b 2) }),
  (0x12, { opds := [.v, .v, .v, .byte (fun f _ b => b < laneWidth f)], fws := [2, 3, 4, 5], lane := true, maskOk := true, build := fun x b _ => .vmulq x (r5 b 0) (r5 b 1) (r5 b 2) (r8 b 3) }),
  (0x13, { opds := [.v, .v, .byte (fun f _ b => b < laneWidth f)], fws := [2, 3], lane := true, maskOk := true, build := fun x b _ => .vsarr x (r5 b 0) (r5 b 1) (r8 b 2) }),
  (0x14, { opds := [.v, .v, .byte (fun f _ b => 1 ≤ b && b < laneWidth f)], fws := [2, 3, 4, 5], lane := true, maskOk := true, build := fun x b _ => .vsat x (r5 b 0) (r5 b 1) (r8 b 2) }),
  (0x18, { opds := [.v, .v, .v], fws := laneAll, lane := true, maskOk := true, build := fun x b _ => .vand x (r5 b 0) (r5 b 1) (r5 b 2) }),
  (0x19, { opds := [.v, .v, .v], fws := laneAll, lane := true, maskOk := true, build := fun x b _ => .vor x (r5 b 0) (r5 b 1) (r5 b 2) }),
  (0x1A, { opds := [.v, .v, .v], fws := laneAll, lane := true, maskOk := true, build := fun x b _ => .vxor x (r5 b 0) (r5 b 1) (r5 b 2) }),
  (0x1B, { opds := [.v, .v, .v], fws := laneAll, lane := true, maskOk := true, build := fun x b _ => .vandn x (r5 b 0) (r5 b 1) (r5 b 2) }),
  (0x1C, { opds := [.v, .v], fws := laneAll, lane := true, maskOk := true, build := fun x b _ => .vnot x (r5 b 0) (r5 b 1) }),
  (0x1D, { opds := [.v, .v, .byte (fun f _ b => b < laneWidth f)], fws := [2, 3, 4, 5], lane := true, maskOk := true, build := fun x b _ => .vshl x (r5 b 0) (r5 b 1) (r8 b 2) }),
  (0x1E, { opds := [.v, .v, .byte (fun f _ b => b < laneWidth f)], fws := [2, 3, 4, 5], lane := true, maskOk := true, build := fun x b _ => .vshr x (r5 b 0) (r5 b 1) (r8 b 2) }),
  (0x1F, { opds := [.v, .v, .byte (fun f _ b => b < laneWidth f)], fws := [2, 3], lane := true, maskOk := true, build := fun x b _ => .vsar x (r5 b 0) (r5 b 1) (r8 b 2) }),
  (0x20, { opds := [.v, .v], fws := laneAll, lane := true, maskOk := true, build := fun x b _ => .vmov x (r5 b 0) (r5 b 1) }),
  (0x21, { opds := [.v, .w], fws := laneAll, lane := true, maskOk := true, build := fun x b _ => .vbcast x (r5 b 0) (r5 b 1) }),
  (0x22, { opds := [.v, .w, .w], fws := laneAll, lane := true, build := fun x b _ => .vins x (r5 b 0) (r5 b 1) (r5 b 2) }),
  (0x23, { opds := [.w, .v, .w], fws := laneAll, lane := true, build := fun x b _ => .vext x (r5 b 0) (r5 b 1) (r5 b 2) }),
  (0x24, { opds := [.v], fws := [2, 3, 4, 5], lane := true, maskOk := true, build := fun x b _ => .viota x (r5 b 0) }),
  (0x28, { opds := [.m, .v, .v, .byte (fun _ _ b => b < 7)], fws := [0, 2, 4], lane := true, maskOk := true, build := fun x b _ => .vcmp x (r3 b 0) (r5 b 1) (r5 b 2) (r8 b 3) }),
  (0x29, { opds := [.v, .v, .v, .m], fws := laneAll, lane := true, build := fun x b _ => .vsel x (r5 b 0) (r5 b 1) (r5 b 2) (r3 b 3) }),
  (0x2C, { opds := [.m, .m, .m], build := fun x b _ => .mand x (r3 b 0) (r3 b 1) (r3 b 2) })]

/-- The secondary vector map, after 0xE4 (R147), part 2. -/
def vectorMap2 : List (Nat × OpRow) := [
  (0x2D, { opds := [.m, .m, .m], build := fun x b _ => .mor x (r3 b 0) (r3 b 1) (r3 b 2) }),
  (0x2E, { opds := [.m, .m, .m], build := fun x b _ => .mxor x (r3 b 0) (r3 b 1) (r3 b 2) }),
  (0x2F, { opds := [.m, .m], build := fun x b _ => .mnot x (r3 b 0) (r3 b 1) }),
  (0x30, { opds := [.w, .m], build := fun x b _ => .mpopc x (r5 b 0) (r3 b 1) }),
  (0x31, { opds := [.w, .m], build := fun x b _ => .mfirst x (r5 b 0) (r3 b 1) }),
  (0x32, { opds := [.w, .m, .byte (fun _ _ b => b < 2)], build := fun x b _ => .mtow x (r5 b 0) (r3 b 1) (r8 b 2) }),
  (0x33, { opds := [.m, .w, .byte (fun _ _ b => b < 2)], build := fun x b _ => .mfromw x (r3 b 0) (r5 b 1) (r8 b 2) }),
  (0x38, { opds := [.v, .v, .byte (fun f _ b => cvtFormatOk f false b), .byte (fun f l b => cvtPartOk f (l.getD 2 0) b), .w], fws := laneAll, lane := true, maskOk := true, build := fun x b _ => .vcvtw x (r5 b 0) (r5 b 1) (r8 b 2) (r8 b 3) (r5 b 4) }),
  (0x39, { opds := [.v, .v, .byte (fun f _ b => cvtFormatOk f true b), .byte (fun f l b => cvtPartOk f (l.getD 2 0) b), .w], fws := laneAll, lane := true, maskOk := true, build := fun x b _ => .vcvtn x (r5 b 0) (r5 b 1) (r8 b 2) (r8 b 3) (r5 b 4) }),
  (0x3A, { opds := [.v, .w, .v, .byte (fun _ _ b => mxqFormats.contains b), .byte (fun _ l b => b < 32 && b / 8 < vpipes && b % 8 < ((NumFmt.ofCode (l.getD 3 0)).getD .f36).perSlot)], fws := [0], lane := true, maskOk := true, build := fun x b _ => .vmxq x (r5 b 0) (r5 b 1) (r5 b 2) (r8 b 3) (r8 b 4) }),
  (0x3B, { opds := [.w, .w, .byte (fun _ _ b => b ≤ 14 && b != 13), .byte (fun _ _ b => b < 32 && b / 8 < vpipes)], build := fun x b _ => .vschoose x (r5 b 0) (r5 b 1) (r8 b 2) (r8 b 3) }),
  (0x40, { opds := [.v, .v], fws := laneAll, lane := true, maskOk := true, build := fun x b _ => .vrsum x (r5 b 0) (r5 b 1) }),
  (0x41, { opds := [.v, .v], fws := laneAll, lane := true, maskOk := true, build := fun x b _ => .vrmax x (r5 b 0) (r5 b 1) }),
  (0x42, { opds := [.v, .v], fws := laneAll, lane := true, maskOk := true, build := fun x b _ => .vrmin x (r5 b 0) (r5 b 1) }),
  (0x44, { opds := [.v, .v], fws := [2, 3, 4, 5], lane := true, maskOk := true, build := fun x b _ => .vscan x (r5 b 0) (r5 b 1) }),
  (0x48, { opds := [.v, .v, .v], fws := laneAll, lane := true, maskOk := true, build := fun x b _ => .vperm x (r5 b 0) (r5 b 1) (r5 b 2) }),
  (0x49, { opds := [.v, .v, .v, .v], fws := laneAll, lane := true, maskOk := true, build := fun x b _ => .vperm2 x (r5 b 0) (r5 b 1) (r5 b 2) (r5 b 3) }),
  (0x4A, { opds := [.v, .v, .w], fws := laneAll, lane := true, maskOk := true, build := fun x b _ => .vslideup x (r5 b 0) (r5 b 1) (r5 b 2) }),
  (0x4B, { opds := [.v, .v, .w], fws := laneAll, lane := true, maskOk := true, build := fun x b _ => .vslidedn x (r5 b 0) (r5 b 1) (r5 b 2) }),
  (0x4C, { opds := [.v, .v, .m], fws := laneAll, lane := true, build := fun x b _ => .vcompress x (r5 b 0) (r5 b 1) (r3 b 2) }),
  (0x50, { opds := [.v, .v], fws := [0, 1], lane := true, maskOk := true, build := fun x b _ => .vrcp x (r5 b 0) (r5 b 1) }),
  (0x51, { opds := [.v, .v], fws := [0, 1], lane := true, maskOk := true, build := fun x b _ => .vrsqrt x (r5 b 0) (r5 b 1) }),
  (0x52, { opds := [.v, .v], fws := [0, 1], lane := true, maskOk := true, build := fun x b _ => .vexp2 x (r5 b 0) (r5 b 1) }),
  (0x53, { opds := [.v, .v], fws := [0, 1], lane := true, maskOk := true, build := fun x b _ => .vlog2 x (r5 b 0) (r5 b 1) }),
  (0x60, { opds := [.v, .a, .imm], fws := laneAll, lane := true, maskOk := true, build := fun x b i => .vld x (r5 b 0) (r4 b 1) i }),
  (0x61, { opds := [.v, .a, .imm], fws := laneAll, lane := true, maskOk := true, build := fun x b i => .vst x (r5 b 0) (r4 b 1) i }),
  (0x62, { opds := [.v, .a, .w], fws := laneAll, lane := true, maskOk := true, build := fun x b _ => .vlds x (r5 b 0) (r4 b 1) (r5 b 2) }),
  (0x63, { opds := [.v, .a, .w], fws := laneAll, lane := true, maskOk := true, build := fun x b _ => .vsts x (r5 b 0) (r4 b 1) (r5 b 2) }),
  (0x64, { opds := [.v, .a, .imm, .byte (fun _ _ b => (1 ≤ b && b ≤ 9) || b == 13 || b == 14)], fws := laneAll, lane := true, maskOk := true, build := fun x b i => .vldn x (r5 b 0) (r4 b 1) i (r8 b 2) }),
  (0x65, { opds := [.v, .a, .imm, .byte (fun _ _ b => (1 ≤ b && b ≤ 9) || b == 13 || b == 14)], fws := laneAll, lane := true, maskOk := true, build := fun x b i => .vstn x (r5 b 0) (r4 b 1) i (r8 b 2) }),
  (0x66, { opds := [.v, .a, .v], fws := laneAll, lane := true, maskOk := true, build := fun x b _ => .vgather x (r5 b 0) (r4 b 1) (r5 b 2) }),
  (0x67, { opds := [.v, .a, .v], fws := laneAll, lane := true, maskOk := true, build := fun x b _ => .vscatter x (r5 b 0) (r4 b 1) (r5 b 2) })]

/-- The secondary vector map, after 0xE4 (R147). -/
def vectorMap : List (Nat × OpRow) := vectorMap1 ++ vectorMap2

/-- The secondary plate and matrix map, after 0xE8 (R168, R189), part 1. -/
def plateMap1 : List (Nat × OpRow) := [
  (0x00, { opds := [.p, .w], build := fun x b _ => .plcfg x (r5 b 0) (r5 b 1) }),
  (0x01, { opds := [.w, .p, .byte (fun _ _ b => b ≤ 2)], build := fun x b _ => .plget x (r5 b 0) (r5 b 1) (r8 b 2) }),
  (0x02, { opds := [.p], build := fun x b _ => .plrel x (r5 b 0) }),
  (0x03, { opds := [.w], build := fun x b _ => .plrelm x (r5 b 0) }),
  (0x04, { opds := [.p], build := fun x b _ => .plclrf x (r5 b 0) }),
  (0x08, { opds := [.p, .a, .w], fws := [0, 1, 2, 3, 4, 5, 6, 7], psoOk := true, build := fun x b _ => .pld x (r5 b 0) (r4 b 1) (r5 b 2) }),
  (0x09, { opds := [.p, .a, .w], fws := [0, 1, 2, 3, 4, 5, 6, 7], psoOk := true, build := fun x b _ => .pst x (r5 b 0) (r4 b 1) (r5 b 2) }),
  (0x0A, { opds := [.p, .a], build := fun x b _ => .plsv x (r5 b 0) (r4 b 1) }),
  (0x0B, { opds := [.p, .a], build := fun x b _ => .plrs x (r5 b 0) (r4 b 1) }),
  (0x10, { opds := [.p, .p, .byte (fun _ _ b => b % 8 == 0 && b < 128 && b / 8 % 4 < vpipes), .w], psoOk := true, build := fun x b _ => .plcvt x (r5 b 0) (r5 b 1) (r8 b 2) (r5 b 3) }),
  (0x11, { opds := [.p, .p, .p, .byte (fun _ _ b => b % 8 == 0 && b < 32 && b / 8 < vpipes)], psoOk := true, build := fun x b _ => .plmxq x (r5 b 0) (r5 b 1) (r5 b 2) (r8 b 3) }),
  (0x14, { opds := [.v, .p, .w], maskOk := true, build := fun x b _ => .plmvr x (r5 b 0) (r5 b 1) (r5 b 2) }),
  (0x15, { opds := [.p, .v, .w], maskOk := true, build := fun x b _ => .plmrv x (r5 b 0) (r5 b 1) (r5 b 2) }),
  (0x20, { opds := [.p, .byte (fun _ _ b => b < 4)], psoOk := true, build := fun x b _ => .arlds x (r5 b 0) (r8 b 1) }),
  (0x21, { opds := [.p, .p, .byte (fun _ _ b => b < 4)], psoOk := true, build := fun x b _ => .arldsx x (r5 b 0) (r5 b 1) (r8 b 2) }),
  (0x22, { opds := [.p, .p, .byte (fun _ _ b => b < 4)], psoOk := true, build := fun x b _ => .arldsp x (r5 b 0) (r5 b 1) (r8 b 2) }),
  (0x24, { opds := [.p, .p, .w], psoOk := true, build := fun x b _ => .mma x (r5 b 0) (r5 b 1) (r5 b 2) }),
  (0x25, { opds := [.p, .p, .p, .w], psoOk := true, build := fun x b _ => .mmax x (r5 b 0) (r5 b 1) (r5 b 2) (r5 b 3) }),
  (0x26, { opds := [.p, .p, .w, .w, .w], psoOk := true, build := fun x b _ => .mmacv x (r5 b 0) (r5 b 1) (r5 b 2) (r5 b 3) (r5 b 4) }),
  (0x28, { opds := [.w, .byte (fun _ _ b => b ≤ 8)], build := fun x b _ => .arget x (r5 b 0) (r8 b 1) }),
  (0x29, { opds := [.w], build := fun x b _ => .arset x (r5 b 0) }),
  (0x2A, { opds := [.byte (fun _ _ b => b < 16)], build := fun x b _ => .arinv x (r8 b 0) }),
  (0x2C, { opds := [.a], build := fun x b _ => .arsv x (r4 b 0) }),
  (0x2D, { opds := [.a], build := fun x b _ => .arrs x (r4 b 0) })]

/-- The secondary plate and matrix map, after 0xE8 (R168, R189). -/
def plateMap : List (Nat × OpRow) := plateMap1

/-! ## Decoding (R84–R87) -/

/-- What bytes decode to. -/
inductive Decoded where
  /-- They encode a command, in so many bytes. -/
  | instr (i : Instr) (len : Nat)
  /-- The byte at an offset ends every way to a legal instruction. -/
  | bad (off : Nat)
  /-- They begin a legal instruction and end before it does. -/
  | more

/-- Prefixes read so far; LIMM as its byte. -/
structure Prefixes where
  fw : Option Nat := none
  mask : Option Nat := none
  pso : Option (Nat × Nat) := none
  limm : Option Nat := none
  reuse : Option Nat := none

/-- Number of prefixes. -/
def Prefixes.count (p : Prefixes) : Nat :=
  p.fw.isSome.toNat + p.mask.isSome.toNat + p.pso.isSome.toNat + p.limm.isSome.toNat + p.reuse.isSome.toNat

/-- The opcode permits the prefixes (R86). -/
def OpRow.permits (r : OpRow) (p : Prefixes) : Bool :=
  (match p.fw with | some f => r.fws.contains f | none => !r.lane || r.fws.contains 0) &&
  (p.mask.isNone || r.maskOk) && (p.pso.isNone || r.psoOk) &&
  (match p.limm with
   | none => true
   | some l => r.opds.any (fun o => match o with | .imm => true | _ => false) && (l == 0xDA || r.pairImm))

/-- The issue of core `c` under prefixes. -/
def Prefixes.issue (p : Prefixes) (c : Nat) : Issue :=
  { core := c, fw := p.fw.map (BitVec.ofNat 3), mask := p.mask.map (fun b => (decide (0xD0 ≤ b), BitVec.ofNat 3 b)),
    pso := p.pso.map (fun q => (BitVec.ofNat 6 q.1, BitVec.ofNat 6 q.2)), reuse := p.reuse.map (BitVec.ofNat 2) }

/-- A number from bytes, least significant first. -/
def natOfLe : List Byte → Nat
  | [] => 0
  | b :: r => b.toNat + 256 * natOfLe r

/-- An immediate from its bytes, by the LIMM prefix (R89). -/
def immOf (limm : Option Nat) (l : List Byte) : Imm :=
  match limm with
  | none => .short (BitVec.ofNat 16 (natOfLe l))
  | some 0xDB => .pair (BitVec.ofNat 72 (natOfLe l))
  | some _ => .long (BitVec.ofNat 36 (natOfLe l))

/-- Bytes of an immediate. -/
def immBytes : Option Nat → Nat
  | none => 2
  | some 0xDB => 9
  | some _ => 5

/-- The values of operands, or where they fail or end: `off` is the offset of the next byte, `vals` the values so far. -/
def readOpds (p : Prefixes) : List Opd → List Nat → Imm → Nat → List Byte → Except Decoded (List Nat × Imm × Nat)
  | [], vals, i, off, _ => .ok (vals, i, off)
  | .imm :: os, vals, _, off, l =>
    let n := immBytes p.limm
    if n = 5 ∧ (l.drop 4).head?.any (fun b => decide (16 ≤ b.toNat)) then .error (.bad (off + 4))
    else if l.length < n then .error .more
    else readOpds p os vals (immOf p.limm (l.take n)) (off + n) (l.drop n)
  | .num16 :: os, vals, i, off, l =>
    match l with
    | [] => .error .more
    | b :: r =>
      if 0x31 < b.toNat then .error (.bad off)
      else match r with
        | [] => .error .more
        | b1 :: r1 => if b1 = 0#8 then readOpds p os (vals ++ [b.toNat]) i (off + 2) r1 else .error (.bad (off + 1))
  | o :: os, vals, i, off, l =>
    match l with
    | [] => .error .more
    | b :: r =>
      let n := b.toNat
      let ok : Bool := match o with
        | .w => decide (n < 32) | .v => decide (n < 32) | .a => decide (n < 16) | .m => decide (n < 8) | .p => decide (n < nplates)
        | .byte f => f (p.fw.getD 0) vals n
        | _ => false
      if ok then readOpds p os (vals ++ [n]) i (off + 1) r else .error (.bad off)

/-- An opcode byte of a map, at an offset, and what follows it. -/
def decodeOp (c : Nat) (p : Prefixes) (map : List (Nat × OpRow)) (off op : Nat) (l : List Byte) : Decoded :=
  match map.find? (fun r => r.1 == op) with
  | none => .bad off
  | some (_, r) =>
    if r.permits p = false then .bad off
    else match readOpds p r.opds [] (.short 0#16) (off + 1) l with
      | .error d => d
      | .ok (vals, i, len) => if 15 < len then .bad 15 else .instr (r.build (p.issue c) vals i) len

/-- An opcode byte after an escape byte. -/
def decodeEsc (c : Nat) (p : Prefixes) (map : List (Nat × OpRow)) (off : Nat) : List Byte → Decoded
  | [] => .more
  | b :: l => decodeOp c p map off b.toNat l

/-- Prefixes, then the opcode; `n` bounds the prefixes still to come. -/
def decodeFrom (c : Nat) : Nat → Prefixes → Nat → List Byte → Decoded
  | 0, _, off, _ => .bad off
  | _, _, _, [] => .more
  | n + 1, p, off, b :: l =>
    let v := b.toNat
    let again (taken : Bool) (q : Prefixes) : Decoded :=
      if taken || p.count == 4 then .bad off else decodeFrom c n q (off + 1) l
    if v < 0xC0 then decodeOp c p primaryMap off v l
    else if v < 0xC8 then again p.fw.isSome { p with fw := some (v - 0xC0) }
    else if v < 0xD8 then again p.mask.isSome { p with mask := some v }
    else if v = 0xD8 then
      if p.pso.isSome || p.count == 4 then .bad off
      else match l with
        | [] => .more
        | r :: l1 =>
          if 64 ≤ r.toNat then .bad (off + 1)
          else match l1 with
            | [] => .more
            | s :: l2 => if 64 ≤ s.toNat then .bad (off + 2) else decodeFrom c n { p with pso := some (r.toNat, s.toNat) } (off + 3) l2
    else if v = 0xDA ∨ v = 0xDB then again p.limm.isSome { p with limm := some v }
    else if 0xDC ≤ v ∧ v ≤ 0xDF then again p.reuse.isSome { p with reuse := some (v - 0xDC) }
    else if v = 0xE4 then decodeEsc c p vectorMap (off + 1) l
    else if v = 0xE8 then decodeEsc c p plateMap (off + 1) l
    else if v = 0xEC then decodeEsc c p systemMap (off + 1) l
    else .bad off

/-- What core `c` decodes from bytes, the first at the lowest address. -/
def decodeBytes (c : Nat) (l : List Byte) : Decoded := decodeFrom c 6 {} 0 l

/-- The offset at which decoding of bytes fails, if it does (R87). -/
def illegalBytes (l : List Byte) : Option Nat :=
  match decodeBytes 0 l with
  | .bad o => some o
  | _ => none

end Sys2Proof.Machine
end

