-- ==== Sys2Proof/Config.lean ====
section
/-!
DEFINITION. The free values: what the spec leaves open after an effect it does give. Each is an opaque constant without a body; nothing can evaluate it.
-/
namespace Sys2Proof.Config

/-- A fresh 36-bit value that nothing constrains, by draw number. -/
opaque freeWord : Nat → BitVec 36

/-- The error of the internal result of a transcendental function, by function number, format width and source bits; its magnitude is bounded where it is used (R157). -/
opaque internalError : Nat → Nat → Nat → Nat

/-- A fresh list of `n` bytes that nothing constrains, by draw number. -/
opaque freeBytes : Nat → Nat → List (BitVec 8)

/-- The set of the tensor cache of a die that a line falls into, modulo R233's 393,216 sets (the spec gives no index function). -/
opaque tcSet : Nat → Nat → Nat

/-- The set of an L1 cache that a line falls into, modulo R226's 256 sets (the spec gives no index function). -/
opaque l1Set : Nat → Nat

/-- The way of a full L1 set that a fill replaces, modulo 4 ways, by core and line (the spec gives no replacement rule). -/
opaque l1Victim : Nat → Nat → Nat

/-- The Kind word (part 0) and, for events without an address, the address pair (parts 1 and 2) of a FAULT entry (R391 gives neither codes nor addresses), by event and unit. -/
opaque ephFault : Nat → Nat → Nat → BitVec 36

/-- The place, modulo 256, of the entry that a full binding cache replaces, by device (R319 gives no replacement rule). -/
opaque bindVictim : Nat → Nat

/-- UID of the module, 16 bytes as a number (R407, R419): a fuse value. -/
opaque uid : Nat

/-- SHAKE256 digest of a signer's public key, 64 bytes as a number, by KEY_INDEX (R412): a fuse value. -/
opaque signerDigest : Nat → Nat

/-- Fuse bytes of a core's identity page: replaced array rows and columns, by core and byte (R210, R407). -/
opaque spareCell : Nat → Nat → Nat

/-- Which pipeline takes a "0/1" vector instruction, modulo 2: pipeline 0 unless it can accept none in that clock (R141), by core and number of the draw. -/
opaque freePipe : Nat → Nat → Nat

/-- Which of the spares still unused a field repair takes, modulo their number, by die and number of the repair (R387). -/
opaque sparePick : Nat → Nat → Nat

/-- Measurements 1, 2, 3 and 5 of R417 as the bytes that are hashed: the boot ROM, the parts of a body whose split the spec does not give, the fuse configuration. -/
opaque measured : Nat → List (BitVec 8) → List (BitVec 8)

/-- The certificate chain of slot 0 (R417). -/
opaque certChain : List (BitVec 8)

end Sys2Proof.Config
end

