-- ==== Sys2Proof/Machine/Tbl.lean ====
section
/-!
DEFINITION. A finite table in one canonical form: keys strictly rising, no entry equal to the value an unlisted key reads as. Memory and every bank of like registers are held this way, so equal contents are equal data.
-/
namespace Sys2Proof.Machine

/-- A sparse table from Nat keys; `Tbl.get` says what an unlisted key reads as. -/
abbrev Tbl (α : Type) := List (Nat × α)

/-- The entry at key `k`, or `d` when `k` is not listed. -/
def Tbl.get {α : Type} (d : α) (t : Tbl α) (k : Nat) : α :=
  match t with
  | [] => d
  | (j, v) :: r => if j = k then v else Tbl.get d r k

/-- Puts an entry at its place, replacing an entry of the same key. -/
def Tbl.insert {α : Type} (t : Tbl α) (k : Nat) (v : α) : Tbl α :=
  match t with
  | [] => [(k, v)]
  | (j, u) :: r =>
    if k < j then (k, v) :: (j, u) :: r
    else if j = k then (k, v) :: r
    else (j, u) :: Tbl.insert r k v

/-- Takes every entry of key `k` out; a table in canonical form has at most one. -/
def Tbl.erase {α : Type} (t : Tbl α) (k : Nat) : Tbl α :=
  match t with
  | [] => []
  | (j, u) :: r => if j = k then Tbl.erase r k else (j, u) :: Tbl.erase r k

/-- Writes key `k`: writing the value that an unlisted key reads as removes the entry. -/
def Tbl.set {α : Type} [DecidableEq α] (d : α) (t : Tbl α) (k : Nat) (v : α) : Tbl α :=
  if v = d then t.erase k else t.insert k v

/-- Changes the entry of key `k` by a function. -/
def Tbl.modify {α : Type} [DecidableEq α] (d : α) (t : Tbl α) (k : Nat) (f : α → α) : Tbl α :=
  Tbl.set d t k (f (Tbl.get d t k))

/-- Writes the entries `base`, `base + 1`, … -/
def Tbl.setMany {α : Type} [DecidableEq α] (d : α) (t : Tbl α) (base : Nat) : List α → Tbl α
  | [] => t
  | v :: r => Tbl.setMany d (Tbl.set d t base v) (base + 1) r

/-- The keys are strictly rising from `lo` on. -/
def Tbl.risingFrom {α : Type} (lo : Nat) : Tbl α → Bool
  | [] => true
  | (j, _) :: r => decide (lo ≤ j) && Tbl.risingFrom (j + 1) r

/-- The canonical form: keys strictly rising, no entry equal to what an unlisted key reads as. -/
def Tbl.wf {α : Type} [DecidableEq α] (d : α) (t : Tbl α) : Bool :=
  Tbl.risingFrom 0 t && t.all (fun e => decide (e.2 ≠ d))

end Sys2Proof.Machine
end

