-- ==== Sys2Proof/Machine/CoreState.lean ====
section
/-!
DEFINITION. The state of one Lorroku core: what R61 makes program-visible, its machine registers (R225), its outstanding results and in-flight array work, and its pending exceptions.
-/
namespace Sys2Proof.Machine

/-- Three banks of a stack pointer, one for each level (R61). -/
structure Bank where
  /-- Bank of M. -/
  m : Pair := 0#72
  /-- Bank of K. -/
  k : Pair := 0#72
  /-- Bank of T. -/
  t : Pair := 0#72
  deriving DecidableEq, Repr

/-- The bank of a level: 0 M, 1 K, otherwise T. -/
def Bank.get (b : Bank) : Nat → Pair
  | 0 => b.m
  | 1 => b.k
  | _ => b.t

/-- Writes the bank of a level. -/
def Bank.set (b : Bank) (l : Nat) (p : Pair) : Bank :=
  match l with
  | 0 => { b with m := p }
  | 1 => { b with k := p }
  | _ => { b with t := p }

/-- A row of all-zero slots. -/
def zeroRow : List Word := List.replicate 64 0#36

/-- One plate (R162, R166). -/
structure Plate where
  /-- PL_CFG. -/
  cfg : Word := word (63 + 63 * 256)
  /-- PL_STATUS. -/
  status : Word := 0#36
  /-- PL_FPOS. -/
  fpos : Word := 0#36
  /-- Rows by number; each row holds PL_MAXSLOTS slots. -/
  rows : Tbl (List Word) := []
  deriving DecidableEq, Repr

/-- One stationary set of the matrix array (R185, R192). -/
structure ASet where
  /-- ARR_SET: extent, format, SPARSE, MX, VALID, SRC. -/
  info : Word := 0#36
  /-- Stationary slots, by plate row j. -/
  slots : Tbl (List Word) := []
  /-- Metadata or scale bytes of the cells, 16 bits each, by plate row j. -/
  metas : Tbl (List (BitVec 16)) := []
  deriving DecidableEq, Repr

/-- Kinds of array work in flight. -/
inductive ArrKind where
  | ld | ldx | ldsp | mma | mmax | mmacv
  deriving DecidableEq, Repr

/-- One array instruction in flight (R192, R195); its operands are read as it completes, which R182's interlocks make the same as at issue. -/
structure ArrOp where
  kind : ArrKind
  /-- Partition. -/
  part : Nat
  /-- First plate: pw, or pc. -/
  p0 : Nat
  /-- Second plate: pe or pm of a load, pa or pi of a pass. -/
  p1 : Nat := 0
  /-- Third plate: pe of MMAX. -/
  p2 : Nat := 0
  /-- Rows and slots of the plate that PSO governs. -/
  rows : Nat
  slots : Nat
  /-- Control word ws, geometry words wg and wk. -/
  ws : Word := 0#36
  wg : Word := 0#36
  wk : Word := 0#36
  /-- PSW.OVMODE at issue (R186). -/
  ovmode : Nat := 0
  /-- PSW.PL at issue. -/
  level : Nat := 0
  deriving DecidableEq, Repr

/-- A plate load stopped between rows while its data is on the way (R171). -/
structure PldOp where
  plate : Nat
  base : Pair
  stride : Pair
  rows : Nat
  slots : Nat
  /-- Format code of the memory image. -/
  fmt : Nat
  /-- Address of the PLD. -/
  pc : Pair
  /-- Address of the next instruction. -/
  next : Pair
  deriving DecidableEq, Repr

/-- A pending signal, cause 0x12 (R222): KIND, INDEX and the level named by the source. -/
structure Sig where
  kind : Nat
  index : Nat
  level : Nat
  deriving DecidableEq, Repr

/-- An exception as entry sees it (R217): cause, info word, fault address, restart pc, target level, and how it arose. -/
structure Exc where
  cause : Nat
  info : Word
  fa : Pair
  pc : Pair
  target : Nat
  /-- Synchronous under R211. -/
  sync : Bool := true
  /-- Raised through MRAISE (R218). -/
  raised : Bool := false
  deriving DecidableEq, Repr

/-- A deferred report (R223): cause 0x03 or 0x0E, its info and address, and the level whose access it reports. -/
structure Report where
  cause : Nat
  info : Word
  fa : Pair
  level : Nat
  deriving DecidableEq, Repr

/-- Whether and why a core issues (R100, R104, R220, R221, R442). -/
inductive Run where
  /-- Issues instructions. -/
  | running
  /-- After WAITE: until an exception or an enabled event is pending. -/
  | waiting
  /-- In the core monitor at M, with no task: until an exception is taken or a task starts (R453, R456). -/
  | idle
  /-- Waits at M with nothing issued until Alidade starts the core monitor. -/
  | atReset
  /-- Forerunner stack exhaustion: until a core reset. -/
  | exhausted
  /-- Third fault: frozen until Alidade has read the state and resets the core. -/
  | frozen
  /-- Stopped by Alidade: fatal error, rollback stop or power-off. -/
  | stopped
  deriving DecidableEq, Repr

/-- One core. -/
structure Core where
  /-- Whether the core issues. -/
  run : Run := .atReset
  /-- Halted through the eyepiece port (R419). -/
  eyeHalt : Bool := false
  /-- STEP lets one instruction of the halted core issue (R419). -/
  eyeStep : Bool := false
  /-- PC. -/
  pc : Pair := 0#72
  /-- w1–w31; w0 reads as zero. -/
  w : Tbl Word := []
  /-- a0–a14. -/
  a : Tbl Pair := []
  /-- DSP (a15), three banks. -/
  dsp : Bank := {}
  /-- CSP, three banks. -/
  csp : Bank := {}
  /-- Low half of the product. -/
  mpl : Word := 0#36
  /-- High half of the product. -/
  mph : Word := 0#36
  /-- Quotient. -/
  mq : Word := 0#36
  /-- Remainder. -/
  mrem : Word := 0#36
  /-- Products issued and not landed, oldest first (R105). -/
  mulQ : List Pair := []
  /-- Division issued and not landed: quotient and remainder (R105). -/
  divQ : Option (Word × Word) := none
  /-- v0–v31, 64 lanes each. -/
  v : Tbl (List Word) := []
  /-- m1–m7; m0 reads as all ones. -/
  m : Tbl (BitVec 64) := []
  /-- pl0–pl15. -/
  plates : Tbl Plate := []
  /-- Reuse latches A and B: plate, rows, slots (R179). -/
  latchA : Option (Nat × Nat × Nat) := none
  latchB : Option (Nat × Nat × Nat) := none
  /-- ARR_STATUS fields that are not derived from the sets: PART, flags, TRAPEN, SDIRTY. -/
  arr : Word := 0#36
  /-- Stationary sets, by sel 1–8 (R206). -/
  sets : Tbl ASet := []
  /-- Array instructions in flight, oldest first. -/
  arrQ : List ArrOp := []
  /-- PSW. -/
  psw : Word := 0#36
  /-- AFLAGS. -/
  aflags : Word := 0#36
  /-- AFPOS. -/
  afpos : Word := 0#36
  /-- AMAX0 and AMAX1. -/
  amax : Tbl Word := []
  /-- Machine registers 0x011–0x031 by number (MXROOT and MCOREID excepted), unlisted at reset value. -/
  mreg : Tbl Word := []
  /-- Vector instructions done, which numbers the draws of Config.freePipe: the model's own field. -/
  pipeDraws : Nat := 0
  /-- DEPTH_M before the entry of the tick handler that runs (R53). -/
  tickDepth : Nat := 0
  /-- Plate load in progress. -/
  pld : Option PldOp := none
  /-- A tick waits to be taken. -/
  pTick : Bool := false
  /-- Pending signals, cause 0x12. -/
  pSigs : List Sig := []
  /-- Pending events 0x20–0x3F with their info words. -/
  pEvents : List (Nat × Word) := []
  /-- Pending deferred reports, in program order. -/
  pReports : List Report := []
  /-- Pending traps after completion, causes 0x0B and 0x10, in program order. -/
  pTraps : List Report := []
  /-- Array traps that fell due while an exception was entered, with the level of that entry and its DEPTH before it (R205). -/
  heldTraps : List (Report × Nat × Nat) := []
  /-- LEVEL of the task that the monitor started last (R48): what R104 calls the task's level. -/
  taskLevel : Nat := 2
  /-- After FDONE, until the monitor starts a task: nothing issues at the task's level (R104). -/
  ended : Bool := false
  deriving DecidableEq, Repr

/-- A core as reset leaves it: every register at its reset value, waiting at M for the core monitor (DESIGN CHOICE, log 5). -/
def Core.reset : Core := {}

end Sys2Proof.Machine
end

