-- ==== Sys2Proof/Machine/State.lean ====
section
/-!
DEFINITION. The state of the module as plain data, its faults and refusals, and the state after reset.
-/
namespace Sys2Proof.Machine

/-! ## Records that the device sends or keeps -/

/-- One entry of the Alidade log (R410). -/
structure LogEntry where
  tick : Nat
  kind : Nat
  unit : Nat
  detail : Nat
  deriving DecidableEq, Repr

/-- What the device has sent to the outside, in the model's own record. -/
inductive Emit where
  /-- A packet of a flow: TYPE, DEST, DFLOW, SFLOW, PSEQ, body (R293). -/
  | packet (typ dest dflow sflow pseq : Nat) (body : List Byte)
  /-- A control-class packet on a port: TYPE and its fields. -/
  | control (port typ : Nat) (fields : List Nat)
  /-- A flit sent on a port (R293), first sent or resent (R296, R297); with the axis that the packet's detour left, which the wire form has no field for (DESIGN CHOICE, log 37). -/
  | flit (port : Nat) (f : Flit) (detour : Option Nat)
  /-- An MSI-X message (R411). -/
  | msix (vector : Nat)
  /-- A PLDM event message: sensor, value (R418). -/
  | pldmEvent (sensor value : Nat)
  /-- An answer on a management port: SPDM, MCTP, PLDM or eyepiece. -/
  | answer (port code : Nat) (body : List Byte)
  /-- Data returned to the host by CXL.mem: bytes, poison (R399). -/
  | hostData (body : List Byte) (poison : Bool)
  /-- Bytes that the dump writes to the host buffer, at an offset (R396). -/
  | hostWrite (addr off : Nat) (body : List Byte)
  /-- A value returned by a register read to the agent that read it. -/
  | readVal (v : Word)
  deriving DecidableEq, Repr

/-- Where the data of a remote load goes (R247). -/
inductive RemDest where
  /-- A store: nothing is written. -/
  | none
  /-- A w register: load kind 0 word, 1 halfword, 2 halfword unsigned, 3 byte, 4 byte signed, 5 atomic, 6 CAS. -/
  | w (d : Reg) (kind : Nat)
  /-- An a register. -/
  | a (d : AReg)
  /-- Lanes of a vector register: register, format code, active lanes, zeroing form. -/
  | vec (d : Reg) (fmt : Nat) (act : BitVec 64) (zero : Bool)
  /-- The next row of the plate load in progress (R171). -/
  | row
  /-- The image of a plate (PLRS). -/
  | plrs (p : Reg)
  /-- The image of the array (ARRS). -/
  | arrs
  deriving DecidableEq, Repr

/-- A remote access that awaits its answer (R247): it waits to be sent, or was sent with PSEQ. -/
structure RemReq where
  /-- Issuing core. -/
  core : Nat
  /-- Flow context. -/
  flow : Nat
  /-- PSEQ under which it was sent; none while it waits for its flow. -/
  pseq : Option Nat
  /-- TYPE: 0 WRITE, 1 READ, 3 ATOMIC. -/
  typ : Nat
  /-- Address the instruction used. -/
  addr : Pair
  /-- Address of each part, where the request has several. -/
  addrs : List Pair := []
  /-- Bytes that travel with the request. -/
  body : List Byte
  dest : RemDest
  /-- Where a failure is precise (R223), the address of the instruction. -/
  pc : Pair
  /-- Address of the next instruction. -/
  next : Pair
  /-- Privilege level of the access. -/
  level : Nat
  /-- Failures are precise; otherwise deferred. -/
  precise : Bool
  /-- ACCESS of its info word: 0 read, 1 write. -/
  access : Nat
  deriving DecidableEq, Repr

/-- TICK_ writes that wait for the next tick boundary (R34). -/
structure TickStage where
  ctrl : Option Word := none
  period : Option Word := none
  next : Option Word := none
  deriving DecidableEq, Repr

/-! ## Frame schedules (R47–R50, R363) -/

/-- One installed frame schedule. -/
structure Sched where
  /-- Length L; 0 while none is installed. -/
  len : Nat := 0
  /-- Task list entries by core × 4,096 + index: entry PC, argument, flags word. -/
  tasks : Tbl (Pair × Word × Word) := []
  /-- Transmit slot table entries of each port, sorted by FRAME and START. -/
  slots : Tbl (List (BitVec 64)) := []
  deriving DecidableEq, Repr

/-- The schedule unit of Alidade. -/
structure SchedState where
  /-- Schedules 0 and 1. -/
  sched : Tbl Sched := []
  /-- Active schedule and its start tick S. -/
  active : Option (Nat × Nat) := none
  /-- Starts posted: schedule and tick; one per tick (R408). -/
  pendStart : List (Nat × Nat) := []
  /-- Ticks for which a stop is posted. -/
  pendStop : List Nat := []
  /-- Deferred queue of each core, physical address; 0 is none. -/
  dq : Tbl Nat := []
  /-- Deferred queue that takes effect at the next SCHED_START, as address + 1; 0 is no change. -/
  dqNext : Tbl Nat := []
  /-- Flow whose slot runs on each port, as flow + 1. -/
  slotFlow : Tbl Nat := []
  /-- YIELD of the slot that runs on each port (R50). -/
  slotYield : Tbl Bool := []
  /-- KIND of the slot that runs on each port. -/
  slotKind : Tbl Nat := []
  deriving DecidableEq, Repr

/-! ## Memory system (10_memory_system) -/

/-- One line held by a tensor cache (R233). -/
structure TcLine where
  /-- Physical line number. -/
  line : Nat
  /-- Set of the cache. -/
  set : Nat
  /-- Horizon class. -/
  cls : Nat
  /-- REMAIN. -/
  remain : Nat
  /-- Modified with respect to the home. -/
  modified : Bool
  deriving DecidableEq, Repr

/-- A memory request that waits for a slot, or holds one (R243, R244). -/
structure MemReq where
  /-- Requesting agent: core n, 192 + q DMA channel, 448 collective engine, 449 Alidade, 450 host. -/
  agent : Nat
  /-- Physical address. -/
  pa : Nat
  write : Bool
  /-- Tensor cache bank that makes the request: its input at the memory channel arbiter. -/
  bank : Nat
  /-- The request holds a slot. -/
  admitted : Bool
  /-- The access behind it. -/
  acc : MemAcc
  deriving DecidableEq, Repr

/-- One CXL decoder range (R242). -/
structure CxlRange where
  enabled : Bool := false
  interleave : Bool := false
  base : Nat := 0
  size : Nat := 0
  dpa : Nat := 0
  deriving DecidableEq, Repr

/-! ## Arbiters (11_arbitration) -/

/-- What an arbiter holds besides its registers (R258, R262). -/
structure ArbX where
  /-- LOST by input. -/
  lost : Tbl Nat := []
  /-- Starvation latch by input. -/
  starved : Tbl Bool := []
  /-- Round-robin pointer by class. -/
  rr : Tbl Nat := []
  /-- Lock: owner's input and length in cycles. -/
  lock : Option (Nat × Nat) := none
  /-- Agent that owns the lock; none for a packet of another device. -/
  owner : Option Nat := none
  /-- LOCKLONG was raised for the current lock. -/
  longDone : Bool := false
  /-- Pending heads by input, as class + 1. -/
  heads : Tbl Nat := []
  deriving DecidableEq, Repr

/-! ## DMA channels (12_dma) -/

/-- A descriptor that a channel has begun. -/
structure DmaDesc where
  ctrl : Word
  src : Pair
  dst : Pair
  shape : Word
  stride : Word
  aux : Word
  /-- Ring index. -/
  index : Nat
  deriving DecidableEq, Repr

/-- A completion record on its way to the queue (R279, R280). -/
structure DmaRec where
  /-- Word 0 without PHASE. -/
  w0 : Word
  w1 : Word
  w2 : Word
  w3 : Word
  status : Nat
  /-- CTRL of the descriptor, whose OWN is cleared; none for a record that halts the channel (R283). -/
  release : Option Word
  deriving DecidableEq, Repr

/-- What a channel holds besides its registers. -/
structure DmaX where
  /-- The descriptor that has begun, or that failed. -/
  desc : Option DmaDesc := none
  record : Option DmaRec := none
  /-- Scale exponent, SCALED and ISC chosen for the descriptor, kept for a retry (R276). -/
  scale : Option (Int × Bool × Bool) := none
  /-- REGION_GEN before the descriptor's first source read (R285). -/
  snap : Word := 0#36
  /-- The channel will read word 0 at HEAD without a doorbell (R270, R282). -/
  look : Bool := false
  /-- STOP acts once the record is written (R282). -/
  stopping : Bool := false
  /-- A phase has begun: its tick and frame unit (R281). -/
  phase : Option (Nat × Nat) := none
  /-- A PHASE descriptor waits since this tick and unit. -/
  waits : Option (Nat × Nat) := none
  /-- The phase began after its start point. -/
  late : Bool := false
  /-- The phase ran past the tick that ended its first frame. -/
  ranOver : Bool := false
  deriving DecidableEq, Repr

/-! ## The fabric (13_gyiviton_fabric) -/

/-- A packet that waits at a router output (R299–R302). -/
structure OutPkt where
  /-- Virtual channel on the hop. -/
  vc : Nat
  packet : Packet
  body : List Byte := []
  /-- Axis that its detour left; none for a packet that did not detour (R302). -/
  detour : Option Nat := none
  /-- Port and virtual channel on which it arrived; none for a packet of this device. -/
  arrive : Option (Nat × Nat) := none
  /-- Input of the router output's arbiter: 0–9 ports, 10 collective engine, 11 hub and bulk DMA, 12 remote access path (R254). -/
  input : Nat := 11
  /-- Agent that issued it (R257). -/
  agent : Option Nat := none
  /-- KIND of the slots that it goes out in; none where any unit serves (R324). -/
  kind : Option Nat := none
  deriving DecidableEq, Repr

/-- What a fabric port holds besides its registers. -/
structure FabPortX where
  /-- Phase of bring-up: 0 none, 1 DETECT, 2 EQUALIZE, 3 ALIGN, 4 HELLO, 5 DELAY (R295). -/
  phase : Nat := 0
  /-- Failed attempts. -/
  attempts : Nat := 0
  /-- Reason of the last failed HELLO check: 0, 2 or 3. -/
  hello : Nat := 0
  /-- Round trips measured, in 1/8 ns. -/
  probes : List Nat := []
  /-- Tick at which the port became FAILED. -/
  failedAt : Nat := 0
  /-- SEQ expected next. -/
  rxSeq : Nat := 0
  /-- A NAK for that SEQ was sent. -/
  nakSent : Bool := false
  /-- SEQ of the next flit sent. -/
  txSeq : Nat := 0
  /-- Flits sent and not acknowledged, oldest first, with the axis of a detour (R296). -/
  replay : List (Flit × Option Nat) := []
  /-- SEQ of the last flit received in order: the ACK that the port sends. -/
  lastRx : Option Nat := none
  /-- That ACK has not been sent. -/
  ackDue : Bool := false
  /-- Payload of the packet that is arriving, by virtual channel. -/
  partials : Tbl (List Byte) := []
  /-- SEQ last NAKed by the partner, and how often in succession. -/
  naks : Nat × Nat := (0, 0)
  /-- Credits held for sending, by virtual channel. -/
  credit : Tbl Nat := []
  /-- Buffers freed and not returned to the partner as credits, by virtual channel. -/
  owed : Tbl Nat := []
  /-- Of those of VC0, how many CREDIT flits held. -/
  quietOwed : Nat := 0
  /-- The first CREDIT since the port entered UP has been sent, and received. -/
  creditSent : Bool := false
  creditGot : Bool := false
  /-- VC1–VC4 credits were granted since the port entered UP. -/
  granted : Bool := false
  /-- Data flits sent in the running slot since its last control flit (R299). -/
  slotRun : Nat := 0
  /-- Packets that wait at the output. -/
  queue : List OutPkt := []
  /-- The neighbour's PARENT points back to this device, as its beacons say (R306) (DESIGN CHOICE, log 37). -/
  child : Bool := false
  /-- The neighbour is ADMITTED or DRAINING as its notices and beacons say (R301). -/
  nbrIn : Bool := false
  /-- The link came back after retraining and waits for the tick of ROUTE_AT; none before that is known (R301). -/
  rejoin : Option (Option Nat) := none
  /-- The port left UP, and PORT_LOST was not flooded for it yet. -/
  leftUp : Bool := false
  /-- Its neighbour was the BEST when it left UP (R308). -/
  lostBest : Bool := false
  /-- BEST and DIST of the neighbour's last BEACON (R306). -/
  best : Option (Nat × Nat) := none
  /-- FLOOD packets sent in this tick. -/
  floods : Nat := 0
  /-- Notices that wait for the next tick's budget (R307). -/
  backlog : List (BitVec 64) := []
  /-- Beacons sent in this tick beyond the first (R305). -/
  beacons : Nat := 0
  deriving DecidableEq, Repr

/-- What the fabric holds besides its registers and ports. -/
structure FabX where
  /-- Notices seen, with the tick of each (R307). -/
  seen : List (BitVec 64 × Nat) := []
  /-- Notices that have not taken effect, with the tick at which one that came late does. -/
  due : List (BitVec 64 × Option Nat) := []
  /-- Admitted devices by id, as Alidade keeps them from the notices. -/
  members : Tbl Bool := []
  /-- Ports reported lost: device lost × 16 + reporting port, by id (R307). -/
  lost : List (Nat × Nat) := []
  /-- Ids held down (R308). -/
  held : List Nat := []
  /-- Refusals sent in this tick (R311). -/
  refusals : Nat := 0
  /-- Ticks without a BEACON that names a BEST (R308). -/
  quiet : Nat := 0
  /-- A seed master heard a lower BEST: it drops the role at the next boundary (R308). -/
  seedDrop : Bool := false
  /-- Tick at which DRAIN_LIMIT expires (R313). -/
  drainEnd : Option Nat := none
  /-- Own LEAVE tick on the way to OUT_OF_SERVICE. -/
  leaveAt : Option Nat := none
  /-- Tick whose boundary the routes have taken. -/
  routeTick : Nat := 0
  /-- Tick from which every port is held idle (R309, R313). -/
  idleAt : Option Nat := none
  /-- Entries of the binding table that the remote access path caches, by device (R319). -/
  bindCache : List (Nat × Word) := []
  deriving DecidableEq, Repr

/-- A packet that a flow holds for reordering (R318). -/
inductive Held where
  | rx (r : Rx)
  | coll (pseq : Nat) (r : CollRx)
  deriving DecidableEq, Repr

/-- What a flow context holds besides its registers. -/
structure FlowX where
  /-- Tick at which FLOW_OPEN was sent (R317). -/
  sentAt : Nat := 0
  /-- The context waits for the device's own ADMIT tick (R317). -/
  ownWait : Bool := false
  /-- Packets held for reordering (R318). -/
  held : List Held := []
  deriving DecidableEq, Repr

/-! ## The Ephemeris (16_resilience_ephemeris) -/

/-- What the Ephemeris controller holds besides its registers. -/
structure EphX where
  /-- An EPH_OPEN that waits: STEP and the tick of the write (R382). -/
  openReq : Option (Nat × Nat) := none
  /-- The commit tick of an accepted EPH_COMMIT. -/
  commitAt : Option Nat := none
  /-- Tick at which the open record opened. -/
  openTick : Nat := 0
  /-- An entry of the record did not fit (R392). -/
  incomplete : Bool := false
  /-- The recovery budget expired during the record (R388). -/
  expired : Bool := false
  /-- Ticks of the current recovery. -/
  recovTicks : Nat := 0
  /-- BUDGET_EXPIRED was raised in the current recovery. -/
  expiredDone : Bool := false
  /-- A rollback that waits: step and tick RB (R385). -/
  rollback : Option (Nat × Nat) := none
  /-- Tick at which DMA channels that are not STOPPED after a rollback receive ABORT. -/
  abortAt : Option Nat := none
  /-- A digest in progress: address, length, and the open tick of its record, as tick + 1, or 0 (R393). -/
  digest : Option (Nat × Nat × Nat) := none
  /-- Ring offset of the open or last record. -/
  start : Nat := 0
  /-- The last record was rolled back. -/
  rolledBack : Bool := false
  /-- DETACHED and CDIG as they stood at the open (R425). -/
  detached : Bool := false
  cdig : Bool := false
  /-- DIGEST entries met in this replay. -/
  digests : Nat := 0
  /-- Cores whose lineage search is in progress. -/
  searches : List Nat := []
  deriving DecidableEq, Repr

/-! ## The collective engine (14_collectives) -/

/-- Where the local contribution of a bucket stands (R340). -/
inductive Contrib where
  /-- Not complete, and no deadline has passed. -/
  | pending
  /-- Complete before the deadline. -/
  | onTime
  /-- WAIT: complete after the deadline, or still waited for. -/
  | late
  /-- Dropped at the deadline. -/
  | dropped
  /-- Dropped at the deadline; its parts go into a carry. -/
  | addLater
  /-- A backup copy was requested. -/
  | backupWait
  /-- The backup copy stands in its place. -/
  | backup
  /-- This member contributes nothing. -/
  | absent
  deriving DecidableEq, Repr

/-- A descriptor in progress, or a bucket whose deadline passed before its descriptor began (R342). -/
structure CeBucket where
  /-- The engine's own number of it. -/
  id : Nat
  begun : Bool := true
  queue : Nat := 0
  index : Nat := 0
  ctrl : Word := 0#36
  dst : Pair := 0#72
  len : Nat := 0
  fmt : Word := 0#36
  /-- ARG pair and ARG_HDR. -/
  arg : Pair := 0#72
  hdr : Word := 0#36
  group : Nat
  bucket : Nat
  step : Nat
  exp0 : Nat := 0
  /-- START, and the deadline tick. -/
  start : Nat := 0
  deadline : Nat := 0
  carryBuf : Pair := 0#72
  recvCap : Nat := 0
  /-- READY_SEM, and the increases of it that the last read of the part table saw (R329). -/
  sem : Nat := 0
  seen : Option Nat := none
  /-- The engine has sampled the deadline tick, and the contribution was complete then (R340). -/
  past : Bool := false
  inTime : Bool := false
  /-- Blocks, or bytes, of each rank (R347). -/
  segs : List Nat := []
  /-- Order mode when it began: 0 ARRIVAL, 1 recorded, 2 REPLAY. -/
  order : Nat := 0
  detached : Bool := false
  /-- Under REPLAY: the recorded outcome, CARRY_ADDED and order of parts. -/
  rep : Option (Nat × Bool × List Nat) := none
  /-- Parts in the order in which they were taken (R329). -/
  taken : List Nat := []
  /-- The blocks of the parts, once every part is taken. -/
  own : Option (List CBlock) := none
  contrib : Contrib := .pending
  /-- The contribution was late. -/
  late : Bool := false
  /-- Tick at which it was on time or complete. -/
  doneTick : Option Nat := none
  /-- Tick of the BACKUP_REQ. -/
  askTick : Nat := 0
  /-- Blocks of the backup copy that have arrived. -/
  copy : Tbl CBlock := []
  /-- Carry: 0 none, 1 awaited, 2 added, 3 dropped. -/
  carry : Nat := 0
  /-- The carry's blocks once it is added. -/
  carryBlocks : List CBlock := []
  /-- The local side's value of a block before axis step i, by i × 2^25 + block. -/
  vals : Tbl CBlock := []
  /-- Blocks that have passed this device, by axis step. -/
  passed : Tbl Nat := []
  /-- Upstream blocks that wait for the local side, by i × 2^25 + block. -/
  waits : Tbl (Option CBlock) := []
  /-- Failed checks of the packet that starts at a block, by i × 2^25 + block (R336). -/
  fails : Tbl Nat := []
  /-- Owned blocks converted. -/
  conv : Nat := 0
  raised : Nat := 0
  maxExp : Nat := 0
  minCnt : Option Nat := none
  empty : Nat := 0
  /-- NONFIN, OVFL, RSAT of owned blocks. -/
  nonfin : Bool := false
  ovfl : Bool := false
  rsat : Bool := false
  partFault : Bool := false
  /-- Bytes received from each rank, and the length of its piece + 1 once known. -/
  got : Tbl Nat := []
  total : Tbl Nat := []
  /-- The own bytes have been sent. -/
  sent : Bool := false
  /-- This descriptor counts in READS_PREV. -/
  readsPrev : Bool := false
  /-- MISRANK. -/
  misrank : Option Nat := none
  /-- STATUS, once something other than the regular end determines it. -/
  status : Option Nat := none
  deriving DecidableEq, Repr

/-- A collective packet that is sent, or waits: flow, SUB, header, blocks or bytes (R332). -/
structure CeSend where
  flow : Nat
  sub : Nat
  hdr : CollHdr
  blocks : List CBlock := []
  bytes : List Byte := []
  /-- How often it was resent. -/
  resent : Nat := 0
  deriving DecidableEq, Repr

/-- A collective packet received for a bucket that this device has not begun: it waits upstream (R342). -/
structure CeEarly where
  flow : Nat
  sub : Nat
  hdr : CollHdr
  blocks : List CBlock := []
  bytes : List Byte := []
  total : Nat := 0
  fail : VCheck := .ok
  deriving DecidableEq, Repr

/-- A carry (R340). -/
structure CeCarry where
  group : Nat
  bucket : Nat
  step : Nat
  /-- CARRY pair and number of blocks. -/
  buf : Pair
  nblk : Nat
  exp0 : Nat
  sfmt : Nat
  /-- Part table: ARG pair and number of parts, and the parts taken. -/
  arg : Pair
  parts : Nat
  taken : List Nat
  /-- READY_SEM, and the increases of it that the last read saw. -/
  sem : Nat
  seen : Option Nat := none
  /-- START of the bucket (R341). -/
  start : Nat
  /-- Summed into the buffer. -/
  complete : Bool := false
  deriving DecidableEq, Repr

/-- What the engine keeps of a group. -/
structure CeGroup where
  /-- Completions by STEP, newest STEP first (SEQ). -/
  seqs : List (Nat × Nat) := []
  /-- Lateness of the last completed steps, newest first (R341). -/
  hist : List Nat := []
  /-- STEP in progress, its last-completed bucket and that one's lateness. -/
  cur : Option (Nat × Nat × Nat) := none
  /-- STEP in which a contribution was late (ALLORNONE). -/
  lateStep : Option Nat := none
  deriving DecidableEq, Repr

/-- What the collective engine holds besides its registers. -/
structure CeX where
  buckets : List CeBucket := []
  next : Nat := 0
  unsent : List CeSend := []
  /-- The retention buffer (R336). -/
  retain : List CeSend := []
  early : List CeEarly := []
  carries : List CeCarry := []
  /-- Backup requests that wait: flow, group, bucket, STEP. -/
  asks : List (Nat × Nat × Nat × Nat) := []
  /-- Own contributions that can still be asked for, with group, bucket and STEP. -/
  kept : List (Nat × Nat × Nat × List CBlock) := []
  /-- The queue reads word 0 at HEAD without a doorbell. -/
  look : Tbl Bool := []
  groups : Tbl CeGroup := []
  deriving DecidableEq, Repr

/-! ## Ranas: mailboxes, firmware, debug tokens, management (17_ranas_host_control) -/

/-- A command that a mailbox has posted (R402). -/
structure Post where
  mbox : Nat
  op : Nat
  plen : Nat
  seq : Nat
  /-- The 124 parameter bytes. -/
  par : List Byte
  /-- Tick of the post (R408). -/
  tick : Nat := 0
  deriving DecidableEq, Repr

/-- A command that Alidade has carried out, and whose result is not written yet (R403). -/
structure CmdDone where
  mbox : Nat
  seq : Nat
  op : Nat
  rc : Nat
  pay : List Byte
  deriving DecidableEq, Repr

/-- A firmware bank of the module flash (R412) (DESIGN CHOICE, log 45). -/
structure FwBank where
  /-- Holds a valid image (R413). -/
  valid : Bool := false
  version : Nat := 0
  svn : Nat := 0
  image : List Byte := []
  deriving DecidableEq, Repr

/-- What Alidade holds for the host, the BMC and the eyepiece port. -/
structure Ranas where
  /-- Commands posted and not begun, oldest first (R404). -/
  posts : List Post := []
  /-- Commands carried out whose results are not written. -/
  done : List CmdDone := []
  /-- A reset that MODULE_RESET asked for: 0 none, 1 warm, 2 cold, and the mailbox. -/
  reset : Nat × Nat := (0, 0)
  /-- Dump buffer in host memory: address and length; length 0 selects the reserved region (R396). -/
  dump : Nat × Nat := (0, 0)
  /-- A fatal error in progress: reason, unit code, tick (R395). -/
  fatal : Option (Nat × Nat × Nat) := none
  /-- The firmware banks. -/
  bank0 : FwBank := { valid := true }
  bank1 : FwBank := {}
  /-- Committed bank. -/
  committed : Nat := 0
  /-- Bank marked for trial and not yet tried. -/
  trial : Option Nat := none
  /-- Fuse SVN. -/
  fuseSvn : Nat := 0
  /-- A PLDM firmware update is in progress (R415). -/
  updating : Bool := false
  /-- The current debug nonce (R421). -/
  nonce : Option (List Byte) := none
  /-- PERMS of the debug token in force. -/
  token : Option Nat := none
  /-- SPDM connection state by transport, 0 MCTP and 1 DOE: 0 none, 1 version, 2 capabilities, 3 algorithms (R417). -/
  spdm : Tbl Nat := []
  /-- MCTP endpoint id. -/
  eid : Nat := 0
  /-- GDDR7 devices that failed training (R237, R399). -/
  gddrBad : List Nat := []
  /-- The module is powered on. -/
  powered : Bool := false
  /-- Cause of an abrupt power-off that the log still has to name: unit and code (R439). -/
  abrupt : Option (Nat × Nat) := none
  /-- Throttle reason of the clock step in force (R445). -/
  throttle : Nat := 0
  deriving DecidableEq, Repr

/-! ## The core monitor's knowledge of a core's task (R453–R456, R365) -/

/-- What the core monitor runs on a core. -/
inductive TaskKind where
  /-- No task. -/
  | idle
  /-- The task of a frame. -/
  | frame
  /-- The deferred queue entry of an index. -/
  | deferred (index : Nat)
  /-- A context that RUNTIME_START began. -/
  | runtime
  deriving DecidableEq, Repr

/-- A cause that reached M and that the core monitor treats otherwise than by its own code (R457), until it has done so. -/
structure DueCause where
  cause : Nat
  /-- Level at which it arose. -/
  level : Nat
  info : Word
  fa : Pair
  /-- DEPTH_M of its entry. -/
  depth : Nat
  deriving DecidableEq, Repr

/-- The monitor's data for one core. -/
structure Monitor where
  task : TaskKind := .idle
  /-- SFRAME of the frame whose task runs. -/
  frame : Nat := 0
  /-- Frame index of the task that waits for a task that runs on (R54, R456). -/
  waits : Option Nat := none
  /-- An opportunity for the deferred queue has not been used (R365). -/
  opp : Bool := false
  /-- A failure of the deferred queue was reported since the last SCHED_START (R365). -/
  reported : Bool := false
  /-- Started by RUNTIME_START since the core was last reset. -/
  started : Bool := false
  /-- After a core reset: no task until a RUNTIME_START names the core (R442). -/
  fresh : Bool := false
  /-- Causes that reached M and wait for their treatment, outermost entry first (R457). -/
  due : List DueCause := []
  deriving DecidableEq, Repr

/-! ## The state -/

/-- The module's state. -/
structure State where
  /-- Commands that wait, first in first out. -/
  pending : List Instr := []
  /-- Which of the two variants this module is (R5). -/
  variant : Variant := .m9440
  /-- Cores by logical number. -/
  cores : Tbl Core := []
  /-- The monitor's data by core. -/
  monitor : Tbl Monitor := []
  /-- Tick + 1 of the latest third-fault reset of each core (R386). -/
  thirdFault : Tbl Nat := []
  /-- RETIRED flags, kept in flash (R386). -/
  retired : Tbl Bool := []
  /-- MXROOT, one per device (R73). -/
  mxroot : Word := 0#36
  /-- Memory cells by physical key (R67): local addresses, and CXL expander bytes above 2^44. -/
  mem : Tbl Byte := []
  /-- Poisoned lines, by key / 64 (R240). -/
  poison : Tbl Bool := []
  /-- Local store word slots with a parity error, by address / 8 (R227). -/
  lsBad : Tbl Bool := []
  /-- Control-window registers by window offset, unlisted at reset value (R69). -/
  ctl : Tbl Word := []
  /-- The tick counter (R31). -/
  tickCount : BitVec 72 := 0#72
  /-- Shadow of the counter's high word by core (R33). -/
  tickShadow : Tbl Word := []
  /-- Tick register writes that wait for a boundary (R34). -/
  tickStage : TickStage := {}
  /-- Consecutive TICK_SYNC symbols at or below the skew limit (R39). -/
  syncGood : Nat := 0
  /-- Consecutive ticks without TICK_SYNC (R42). -/
  syncMissed : Nat := 0
  /-- A TICK_SYNC arrived since the last tick. -/
  syncSeen : Bool := false
  /-- Low word of the last announced SWITCH_LO tick was received (R45). -/
  switchKnown : Bool := false
  /-- Lock conditions are met (R39). -/
  lockReady : Bool := false
  /-- The counter was stepped on the way to this lock (R31). -/
  syncStepped : Bool := false
  /-- Period that the last TICK_SYNC carried (R44). -/
  syncPeriod : Nat := 0
  /-- Master whose TICK_SYNC was accepted: TICK_MASTER shows it from the next tick boundary (R43). -/
  syncMaster : Option Nat := none
  /-- Frame schedules. -/
  sched : SchedState := {}
  /-- Arithmetic clock step: 0 940 MHz, 1 705 MHz, 2 470 MHz (R445). -/
  clockStep : Nat := 0
  /-- Tensor cache lines by die, oldest fill first (R233). -/
  tcLines : Tbl (List TcLine) := []
  /-- Lines of each core's L1 data cache, oldest fill first: clean copies (R228). -/
  l1d : Tbl (List Nat) := []
  /-- Lines of each core's L1 instruction cache (R226, R81). -/
  l1i : Tbl (List Nat) := []
  /-- Memory requests that wait or hold slots, oldest first (R244). -/
  memReqs : List MemReq := []
  /-- Slots of the CXL pool; the remote pool takes the rest of the hub's (R243). -/
  cxlSlots : Nat := 12000
  /-- Remote timeout in µs (R248). -/
  remoteTimeout : Nat := 100
  /-- CXL decoder ranges by port × 8 + range (R242). -/
  cxlRanges : Tbl CxlRange := []
  /-- CXL expanders that are removed or down, by port. -/
  cxlDown : Tbl Bool := []
  /-- Remote accesses that await their answers. -/
  remote : List RemReq := []
  /-- Semaphores bound to MSI-X vectors (R411): 2 × vector + 2 armed, 2 × vector + 1 disarmed. -/
  semHost : Tbl Nat := []
  /-- Increases of each semaphore: the engine reads part tables at one (R329). -/
  semUps : Tbl Nat := []
  /-- Arbiters. -/
  arb : Tbl ArbX := []
  /-- DMA channels. -/
  dma : Tbl DmaX := []
  /-- Fabric ports. -/
  fabPorts : Tbl FabPortX := []
  /-- The fabric. -/
  fab : FabX := {}
  /-- Flow contexts. -/
  flows : Tbl FlowX := []
  /-- The Ephemeris controller. -/
  eph : EphX := {}
  /-- The collective engine. -/
  ce : CeX := {}
  /-- BAR0 registers by offset, unlisted at reset value (R401). -/
  bar0 : Tbl Reg32 := []
  /-- MSI-X message control of the function: bit 15 enable, bit 14 function mask (R411). -/
  msixCtl : BitVec 16 := 0#16
  /-- What Alidade holds. -/
  ranas : Ranas := {}
  /-- The Alidade log, oldest first (R410). -/
  log : List LogEntry := []
  /-- The model's own count of free values drawn. -/
  freeCtr : Nat := 0
  /-- The model's own record of what the device has sent, newest first. -/
  out : List Emit := []
  deriving DecidableEq, Repr

/-- What stops the machine. No command of this model ends in one: every condition the spec names is an exception, a status, or an ignored write. -/
inductive Fault where
  /-- Raised by no command; kept so that a stopped state has a name. Safe. -/
  | stopped
  deriving DecidableEq, Repr

/-- Why a command has no meaning. -/
inductive Refusal where
  /-- Raised by Dispatch for a command whose meaning is not written. Safe: the machine stops where the hardware goes on. -/
  | notModelled (mnemonic : String)
  deriving DecidableEq, Repr

/-- The module right after reset, before power-on: every register at its reset value, the device BOOTING, every core waiting at M, memory with nothing listed, no command waiting. -/
def State.reset : State := {}

end Sys2Proof.Machine
end

