-- ==== Sys2Proof/Machine/CoreOps.lean ====
section
/-!
DEFINITION. Named operations on one core: registers, PSW fields, machine registers, arithmetic flags and the first-position record, AMAX, the stochastic generator, the exposed results of the multiplier and divider.
-/
namespace Sys2Proof.Machine

/-! ## Levels and the PSW (R61–R63) -/

/-- PSW.PL. -/
def Core.pl (k : Core) : Nat := fld k.psw 0 2
/-- PSW.IE. -/
def Core.ie (k : Core) : Bool := bitAt k.psw 2
/-- PSW.FNEST. -/
def Core.fnest (k : Core) : Bool := bitAt k.psw 3
/-- PSW.ATRAP. -/
def Core.atrap (k : Core) : Bool := bitAt k.psw 4
/-- PSW.RMODE. -/
def Core.rmode (k : Core) : Nat := fld k.psw 5 3
/-- PSW.OVMODE. -/
def Core.ovmode (k : Core) : Nat := fld k.psw 8 2
/-- PSW.SSTEP. -/
def Core.sstep (k : Core) : Bool := bitAt k.psw 10
/-- PSW.Z. -/
def Core.z (k : Core) : Bool := bitAt k.psw 11
/-- PSW.N. -/
def Core.n (k : Core) : Bool := bitAt k.psw 12
/-- PSW.C. -/
def Core.cf (k : Core) : Bool := bitAt k.psw 13
/-- PSW.V. -/
def Core.vf (k : Core) : Bool := bitAt k.psw 14

/-- Sets PSW.VDIRTY: a v or m register is written. -/
def Core.vdirty (k : Core) : Core := { k with psw := setBitAt k.psw 15 true }
/-- Sets PSW.PDIRTY: a plate is written or configured. -/
def Core.pdirty (k : Core) : Core := { k with psw := setBitAt k.psw 16 true }

/-- Condition flags as an instruction sets them; `none` leaves a flag (R91). -/
structure Cond where
  z : Option Bool := none
  n : Option Bool := none
  c : Option Bool := none
  v : Option Bool := none
  deriving DecidableEq, Repr

/-- One flag of the PSW after an instruction. -/
def putFlag (w : Word) (i : Nat) : Option Bool → Word
  | none => w
  | some b => setBitAt w i b

/-- The PSW after an instruction has set its flags. -/
def Cond.apply (f : Cond) (psw : Word) : Word :=
  putFlag (putFlag (putFlag (putFlag psw 11 f.z) 12 f.n) 13 f.c) 14 f.v

/-! ## Registers (R61) -/

/-- Reads a w register; w0 reads as zero. -/
def Core.getW (k : Core) (r : Reg) : Word := if r = 0#5 then 0#36 else Tbl.get 0#36 k.w r.toNat

/-- Writes a w register; writes to w0 are discarded. -/
def Core.setW (k : Core) (r : Reg) (x : Word) : Core :=
  if r = 0#5 then k else { k with w := Tbl.set 0#36 k.w r.toNat x }

/-- Reads an a register; a15 is the DSP bank of PSW.PL. -/
def Core.getA (k : Core) (r : AReg) : Pair := if r = 15#4 then k.dsp.get k.pl else Tbl.get 0#72 k.a r.toNat

/-- Writes an a register; a15 is the DSP bank of PSW.PL. -/
def Core.setA (k : Core) (r : AReg) (x : Pair) : Core :=
  if r = 15#4 then { k with dsp := k.dsp.set k.pl x } else { k with a := Tbl.set 0#72 k.a r.toNat x }

/-- Reads a v register as its 64 lanes. -/
def Core.getV (k : Core) (r : Reg) : List Word := Tbl.get zeroRow k.v r.toNat

/-- Writes a v register and sets VDIRTY. -/
def Core.setV (k : Core) (r : Reg) (l : List Word) : Core :=
  { k with v := Tbl.set zeroRow k.v r.toNat l }.vdirty

/-- Reads an m register; m0 reads as all ones. -/
def Core.getM (k : Core) (r : MReg) : BitVec 64 := if r = 0#3 then BitVec.allOnes 64 else Tbl.get 0#64 k.m r.toNat

/-- Writes an m register and sets VDIRTY; writes to m0 are discarded. -/
def Core.setM (k : Core) (r : MReg) (x : BitVec 64) : Core :=
  if r = 0#3 then k else { k with m := Tbl.set 0#64 k.m r.toNat x }.vdirty

/-- Reads a machine register by number. -/
def Core.getMreg (k : Core) (n : Nat) : Word := Tbl.get (mregReset n) k.mreg n

/-- Writes a machine register by number. -/
def Core.setMreg (k : Core) (n : Nat) (x : Word) : Core := { k with mreg := Tbl.set (mregReset n) k.mreg n x }

/-- A plate. -/
def Core.plate (k : Core) (p : Nat) : Plate := Tbl.get {} k.plates p

/-- Writes a plate. -/
def Core.setPlate (k : Core) (p : Nat) (x : Plate) : Core := { k with plates := Tbl.set {} k.plates p x }

/-- A stationary set, by sel 1–8. -/
def Core.aset (k : Core) (i : Nat) : ASet := Tbl.get {} k.sets i

/-- Writes a stationary set. -/
def Core.setAset (k : Core) (i : Nat) (x : ASet) : Core := { k with sets := Tbl.set {} k.sets i x }

/-! ## Machine register fields -/

/-- MFRAME.OPEN. -/
def Core.open (k : Core) : Bool := bitAt (k.getMreg 0x11) 0
/-- MFRAME.IN_TICK. -/
def Core.inTick (k : Core) : Bool := bitAt (k.getMreg 0x11) 2
/-- MDFSTAT.ACTIVE. -/
def Core.dfActive (k : Core) : Bool := bitAt (k.getMreg 0x19) 0
/-- DEPTH of M or K in MNEST. -/
def Core.depth (k : Core) (l : Nat) : Nat := fld (k.getMreg 0x18) (6 * l) 6
/-- Writes DEPTH of M or K. -/
def Core.setDepth (k : Core) (l d : Nat) : Core := k.setMreg 0x18 (setFld (k.getMreg 0x18) (6 * l) 6 d)
/-- MNEST.NLIMIT. -/
def Core.nlimit (k : Core) : Nat := fld (k.getMreg 0x18) 12 6
/-- Lower bound of the data stack of a level, in bytes (R106). -/
def Core.dlo (k : Core) (l : Nat) : Nat := (k.getMreg (0x21 + 2 * l)).toNat * 256
/-- Upper bound of the data stack of a level. -/
def Core.dhi (k : Core) (l : Nat) : Nat := (k.getMreg (0x22 + 2 * l)).toNat * 256
/-- Lower bound of the call stack of a level. -/
def Core.clo (k : Core) (l : Nat) : Nat := (k.getMreg (0x27 + 2 * l)).toNat * 256
/-- Upper bound of the call stack of a level. -/
def Core.chi (k : Core) (l : Nat) : Nat := (k.getMreg (0x28 + 2 * l)).toNat * 256

/-! ## Exposed results (R105) -/

/-- The oldest product lands. -/
def Core.landMul (k : Core) : Core :=
  match k.mulQ with
  | [] => k
  | p :: r => { k with mulQ := r, mpl := lo36 p, mph := hi36 p }

/-- The division lands. -/
def Core.landDiv (k : Core) : Core :=
  match k.divQ with
  | none => k
  | some (q, r) => { k with divQ := none, mq := q, mrem := r }

/-- Every product lands, in issue order. -/
def Core.landMuls (k : Core) : Core :=
  match k.mulQ.getLast? with
  | none => k
  | some p => { k with mulQ := [], mpl := lo36 p, mph := hi36 p }

/-- Every outstanding result lands. -/
def Core.landAll (k : Core) : Core := k.landMuls.landDiv

/-! ## Arithmetic flags and the first-position record (R134, R135) -/

/-- The lowest FKIND code among the flags of one element. -/
def flagKind (f : Flg) : Option Nat :=
  if f.getLsbD 0 then some 0 else if f.getLsbD 1 then some 1 else if f.getLsbD 2 then some 2
  else if f.getLsbD 5 then some 3 else if f.getLsbD 6 then some 4 else if f.getLsbD 7 then some 5 else none

/-- One element's flags with the position that AFPOS would name. -/
structure ElemFlag where
  flags : Flg
  plate : Nat := 0
  row : Nat := 0
  slot : Nat := 0
  sub : Nat := 0
  deriving DecidableEq, Repr

/-- The first element that can write a first-position record, with its FKIND. -/
def firstFlagged : List ElemFlag → Option (ElemFlag × Nat)
  | [] => none
  | e :: r =>
    match flagKind e.flags with
    | some c => some (e, c)
    | none => firstFlagged r

/-- The flags that any element raises. -/
def allFlags (l : List ElemFlag) : Flg := l.foldl (fun f e => f ||| e.flags) 0#9

/-- AFLAGS and AFPOS after the elements of one instruction, in their order (R135) (DEDUCED, log 53). -/
def Core.note (k : Core) (unit : Nat) (l : List ElemFlag) : Core :=
  let af := k.aflags ||| (allFlags l).setWidth 36
  if bitAt k.aflags 9 then { k with aflags := af }
  else
    match firstFlagged l with
    | none => { k with aflags := af }
    | some (e, c) =>
      { k with
        aflags := setFld (setFld (setBitAt af 9 true) 10 3 c) 13 3 unit
        afpos := word (e.plate % 32 + e.row % 256 * 2 ^ 5 + e.slot % 256 * 2 ^ 13 + e.sub % 8 * 2 ^ 21) }

/-! ## AMAX (R138, R139) -/

/-- Reads AMAXp. -/
def Core.getAmax (k : Core) (p : Nat) : Word := Tbl.get 0#36 k.amax p

/-- Writes AMAXp. -/
def Core.setAmax (k : Core) (p : Nat) (x : Word) : Core := { k with amax := Tbl.set 0#36 k.amax p x }

/-- Merges source values into AMAXp. -/
def Core.feed (k : Core) (p : Nat) (vs : List FVal) : Core := k.setAmax p (vs.foldl amaxFeed (k.getAmax p))

/-! ## The stochastic generator (R129, R130) -/

/-- The 64-bit seed. -/
def Core.seed (k : Core) : BitVec 64 :=
  BitVec.ofNat 64 ((k.getMreg 0x2D).toNat + fld (k.getMreg 0x2E) 0 28 * 2 ^ 36)

/-- The rounding context of the result element `e` of lane or slot `l`. -/
def Core.rctx (k : Core) (l e : Nat) : RCtx :=
  { rmode := k.rmode, ovmode := k.ovmode,
    draw := if k.rmode = 4 then stochDraw k.seed (k.getMreg 0x2F) l e else 0 }

/-- MSRCOUNT increases by 1 when `b`. -/
def Core.countStoch (k : Core) (b : Bool) : Core :=
  if b then k.setMreg 0x2F (k.getMreg 0x2F + 1#36) else k

/-! ## Reuse latches (R179) -/

/-- Invalidates the latches that hold a plate. -/
def Core.dropLatch (k : Core) (p : Nat) : Core :=
  { k with
    latchA := if k.latchA.any (fun l => l.1 == p) then none else k.latchA
    latchB := if k.latchB.any (fun l => l.1 == p) then none else k.latchB }

/-- Invalidates both latches. -/
def Core.dropLatches (k : Core) : Core := { k with latchA := none, latchB := none }

/-- Keeps the operands that a REUSE prefix names: first and second plate source operands with their extents. -/
def Core.reuse (k : Core) (x : Issue) (a b : Option (Nat × Nat × Nat)) : Core :=
  match x.reuse with
  | none => k
  | some r =>
    if r = 0#2 then k.dropLatches
    else { k with
           latchA := if r.getLsbD 0 then a.or k.latchA else k.latchA
           latchB := if r.getLsbD 1 then b.or k.latchB else k.latchB }

end Sys2Proof.Machine
end

