-- ==== Sys2Proof/Machine/ArrayCore.lean ====
section
/-!
DEFINITION. Plates as storage and the matrix array's arithmetic (07_plates, 08_matrix_array): extents, plate flags, stationary loads and passes as they complete.
-/
namespace Sys2Proof.Machine

/-! ## Plates (R162–R167) -/

/-- Rows that PL_CFG states. -/
def Plate.nrows (p : Plate) : Nat := fld p.cfg 0 8 + 1
/-- Slots per row that PL_CFG states. -/
def Plate.nslots (p : Plate) : Nat := fld p.cfg 8 8 + 1
/-- Format code of PL_CFG. -/
def Plate.fmt (p : Plate) : Nat := fld p.cfg 16 5
/-- PL_STATUS.STATE: 0 EMPTY, 1 VALID, 2 LOADING. -/
def Plate.state (p : Plate) : Nat := fld p.status 0 2
/-- PL_STATUS.ROWS_DONE. -/
def Plate.rowsDone (p : Plate) : Nat := fld p.status 2 8
/-- PL_STATUS.ZFILL. -/
def Plate.zfill (p : Plate) : Bool := bitAt p.status 16
/-- Row `r`. -/
def Plate.row (p : Plate) (r : Nat) : List Word := Tbl.get zeroRow p.rows r
/-- Slot `s` of row `r`. -/
def Plate.slot (p : Plate) (r s : Nat) : Word := (p.row r).getD s 0#36

/-- Writes STATE. -/
def Plate.setState (p : Plate) (st : Nat) : Plate := { p with status := setFld p.status 0 2 st }

/-- EMPTY with ROWS_DONE 0 and ZFILL 0 (R166). -/
def Plate.empty (p : Plate) : Plate :=
  { p with status := setBitAt (setFld (setFld p.status 0 2 0) 2 8 0) 16 false }

/-- Replaces the first slots of a row; the other slots keep their value. -/
def overlay (old new : List Word) : List Word := new ++ old.drop new.length

/-- Writes the first slots of row `r`. -/
def Plate.setRow (p : Plate) (r : Nat) (l : List Word) : Plate :=
  { p with rows := Tbl.set zeroRow p.rows r (overlay (p.row r) l) }

/-- A plate whose slots are all +0 when it is EMPTY (R166). -/
def Plate.zeroed (p : Plate) : Plate := if p.state = 0 then { p with rows := [] } else p

/-- The flags of one element written to a plate, with its place and k-group. -/
structure PlateFlag where
  flags : Flg
  row : Nat
  slot : Nat
  sub : Nat := 0
  kgrp : Nat := 0
  deriving DecidableEq, Repr

/-- The first flagged element with its FKIND. -/
def firstPlateFlag : List PlateFlag → Option (PlateFlag × Nat)
  | [] => none
  | e :: r =>
    match flagKind e.flags with
    | some c => some (e, c)
    | none => firstPlateFlag r

/-- PL_STATUS and PL_FPOS after the elements that an instruction writes (R167). -/
def Plate.note (p : Plate) (src : Nat) (l : List PlateFlag) : Plate :=
  let f := l.foldl (fun a e => a ||| e.flags) 0#9
  let b (i : Nat) : Nat := (f.getLsbD i).toNat
  let st := p.status ||| word (b 0 * 2 ^ 10 + b 2 * 2 ^ 11 + b 5 * 2 ^ 12 + b 6 * 2 ^ 13 + b 7 * 2 ^ 14)
  if bitAt p.status 15 then { p with status := st }
  else
    match firstPlateFlag l with
    | none => { p with status := st }
    | some (e, c) =>
      { p with
        status := setBitAt st 15 true
        fpos := word (c + e.row % 256 * 2 ^ 3 + e.slot % 256 * 2 ^ 11 + e.sub % 8 * 2 ^ 19 + e.kgrp % 4096 * 2 ^ 22 + src % 2 * 2 ^ 34) }

/-! ## Array state (R192, R196, R206) -/

/-- ARR_STATUS.PART. -/
def Core.part (k : Core) : Nat := fld k.arr 0 2
/-- Number of partitions of a layout (R196). -/
def partCount : Nat → Nat | 0 => 1 | 1 => 2 | _ => 4
/-- Rows of a partition of a layout. -/
def partRows : Nat → Nat | 0 => 64 | 1 => 64 | _ => 32
/-- Columns of a partition of a layout. -/
def partCols : Nat → Nat | 0 => 64 | 1 => 32 | _ => 32

/-- ARR_SET.VALID. -/
def ASet.valid (a : ASet) : Bool := bitAt a.info 23
/-- N of a set. -/
def ASet.n (a : ASet) : Nat := fld a.info 0 8 + 1
/-- K of a set. -/
def ASet.k (a : ASet) : Nat := fld a.info 8 8 + 1
/-- Format code of a set. -/
def ASet.fmt (a : ASet) : Nat := fld a.info 16 5
/-- ARR_SET.SPARSE. -/
def ASet.sparse (a : ASet) : Bool := bitAt a.info 21
/-- ARR_SET.MX. -/
def ASet.mx (a : ASet) : Bool := bitAt a.info 22
/-- ARR_SET.SRC. -/
def ASet.src (a : ASet) : Nat := fld a.info 24 5

/-- Foreground set of a partition, as sel. -/
def fgSel (p : Nat) : Nat := 1 + 2 * p
/-- Background set of a partition, as sel. -/
def bgSel (p : Nat) : Nat := 2 + 2 * p

/-- ARR_STATUS as it reads: the RW fields with FGV, BGV, BGL and BUSY. -/
def Core.arrStatus (k : Core) : Word :=
  let bits (f : Nat → Bool) : Nat := ((List.range 4).map (fun p => flag (f p) p)).sum
  let w := setFld k.arr 2 4 (bits (fun p => (k.aset (fgSel p)).valid))
  let w := setFld w 6 4 (bits (fun p => (k.aset (bgSel p)).valid))
  let w := setFld w 10 4 (bits (fun p => k.arrQ.any (fun o => o.part == p &&
    (match o.kind with | .ld | .ldx | .ldsp => true | _ => false))))
  setBitAt w 14 (!k.arrQ.isEmpty)

/-- ARR_STATUS.SDIRTY is set. -/
def Core.sdirty (k : Core) : Core := { k with arr := setBitAt k.arr 25 true }

/-! ## A stationary load completes (R192, R197, R198) -/

/-- The format that a code names, F36 for a reserved code. -/
def codeFmt (c : Nat) : NumFmt := (NumFmt.ofCode c).getD .f36

/-- A row of slots from elements in order. -/
def packRow (f : NumFmt) (slots : Nat) (es : List Nat) : List Word :=
  (List.range slots).map (fun s => f.pack ((es.drop (s * f.perSlot)).take f.perSlot))

/-- Byte `b` of a row of a format 13 plate. -/
def scaleByte (p : Plate) (row b : Nat) : Nat := NumFmt.e8m0.elem (p.slot row (b / 4)) (b % 4)

/-- The 16 bits that cell (i, j) keeps beside its slot: scale bytes of its first and last element's blocks, or metadata. -/
def cellMeta (kind : ArrKind) (n : Nat) (pe : Plate) (j i : Nat) : BitVec 16 :=
  match kind with
  | .ldx => BitVec.ofNat 16 (scaleByte pe j (n * i / 32) + 256 * scaleByte pe j ((n * i + n - 1) / 32))
  | .ldsp => BitVec.ofNat 16 (NumFmt.int18.elem (pe.slot j (i / 2)) (i % 2))
  | _ => 0#16

/-- A load writes its last column: the background set holds the operand and is valid. -/
def Core.completeLoad (k : Core) (o : ArrOp) : Core :=
  let pw := k.plate o.p0
  let pe := k.plate o.p1
  let n := (codeFmt pw.fmt).perSlot
  let info := word (o.rows - 1 + (o.slots - 1) * 2 ^ 8 + pw.fmt * 2 ^ 16 + flag (o.kind = .ldsp) 21 + flag (o.kind = .ldx) 22 +
    2 ^ 23 + o.p0 * 2 ^ 24)
  let set : ASet :=
    { info := info
      slots := Tbl.setMany zeroRow [] 0 ((List.range o.rows).map (fun j => overlay zeroRow ((pw.row j).take o.slots)))
      metas := match o.kind with
        | .ld => []
        | kind => Tbl.setMany [] [] 0 ((List.range o.rows).map (fun j => (List.range o.slots).map (fun i => cellMeta kind n pe j i))) }
  (k.setAset (bgSel o.part) set).sdirty

/-! ## A pass completes (R186–R188, R197–R204) -/

/-- One product of a cell: its value, its flags and the dense K-slot it belongs to. -/
structure CellProd where
  v : XRes
  slot : Nat

/-- Exact sum of a cell's products: a zero sum is −0 only when every product is −0. -/
def sumProds (l : List CellProd) : XRes :=
  match l with
  | [] => { v := .zero false }
  | p :: r =>
    r.foldl (fun a q =>
      let s := FVal.add 0 a.v q.v.v
      { v := s.v, flags := a.flags ||| q.v.flags ||| s.flags }) p.v

/-- Streaming row `m` of a pass: its dense slots, or none for a row of zero bits that convolution generates (R201). -/
def streamRow (o : ArrOp) (pa pa2 : Plate) (sparse : Bool) (m : Nat) : List Word :=
  match o.kind with
  | .mmacv =>
    let iw := fld o.wg 0 6 + 1
    let ih := fld o.wg 6 6 + 1
    let ow := fld o.wg 12 6 + 1
    let oy := m / ow
    let ox := m % ow
    let by_ := toSigned 8 (fld o.wk 8 8)
    let bx := toSigned 8 (fld o.wk 16 8)
    let iy : Int := (oy * (fld o.wg 18 3 + 1) + fld o.wk 0 4 * (fld o.wg 24 4 + 1) : Nat) + by_
    let ix : Int := (ox * (fld o.wg 21 3 + 1) + fld o.wk 4 4 * (fld o.wg 28 4 + 1) : Nat) + bx
    if 0 ≤ iy ∧ iy < ih ∧ 0 ≤ ix ∧ ix < iw then (pa.row (iy.toNat * iw + ix.toNat)).take o.slots
    else List.replicate o.slots 0#36
  | _ => if sparse then (pa.row m).take o.slots ++ (pa2.row m).take o.slots else (pa.row m).take o.slots

/-- Products of cell (i, j) for one streaming row. -/
def cellProds (o : ArrOp) (fa : NumFmt) (s : ASet) (pe : Plate) (m j i : Nat) (row : List Word) : List CellProd :=
  let fw := codeFmt s.fmt
  let n := fw.perSlot
  let w := (Tbl.get zeroRow s.slots j).getD i 0#36
  let me := ((Tbl.get [] s.metas j).getD i 0#16).toNat
  (List.range n).map (fun e =>
    if s.sparse then
      let g := e / 2
      let pos := me / 2 ^ (4 * g + 2 * (e % 2)) % 4
      let de := 4 * g + pos
      let ds := 2 * i + de / n
      { v := (fa.decode (fa.elem (row.getD ds 0#36) (de % n))).mul (fw.decode (fw.elem w e)), slot := ds }
    else if o.kind = .mmax then
      let q := i * n + e
      let sw := if q / 32 = i * n / 32 then me % 256 else me / 256
      let sa := scaleByte pe m (q / 32)
      { v := (mxDecode fa sa (fa.elem (row.getD i 0#36) e)).mul (mxDecode fw sw (fw.elem w e)), slot := i }
    else { v := (fa.decode (fa.elem (row.getD i 0#36) e)).mul (fw.decode (fw.elem w e)), slot := i })

/-- The partial sum of one accumulator element and what it raised: flags and the lowest k-group of a flagged event. -/
structure AccRes where
  bits : Nat
  flags : Flg
  kgrp : Option Nat

/-- Adds an event at a k-group. -/
def AccRes.event (a : AccRes) (f : Flg) (g : Nat) : AccRes :=
  { a with flags := a.flags ||| f
           kgrp := if (flagKind f).isSome then some ((a.kgrp.map (fun h => min h g)).getD g) else a.kgrp }

/-- A value that is NaN or an infinity. -/
def FVal.nonFinite : FVal → Bool
  | .nan => true
  | .inf _ => true
  | _ => false

/-- F36 delivery inside the array: nearest even, PSW.OVMODE of issue (R186). -/
def arrRound (ovmode : Nat) (x : XRes) : FRes := NumFmt.f36.deliver { rmode := 0, ovmode := ovmode, draw := 0 } x

/-- One F36 accumulator element (R186). -/
def accF36 (o : ArrOp) (fa : NumFmt) (s : ASet) (pe : Plate) (m j : Nat) (row : List Word) (old : Word) : AccRes :=
  let kbase := fld o.ws 0 12
  let a := (List.range s.k).foldl (fun (a : AccRes) i =>
    let ps := cellProds o fa s pe m j i row
    let base := if s.sparse then 2 * i else i
    let d := sumProds ps
    let sum := FVal.add 0 (NumFmt.f36.decode a.bits) d.v
    let r := arrRound o.ovmode { sum with flags := sum.flags ||| d.flags }
    let bad := ps.filter (fun p => (flagKind p.v.flags).isSome || p.v.v.nonFinite)
    let g := match bad with
      | [] => base
      | p :: rest => rest.foldl (fun g q => min g q.slot) p.slot
    { a.event r.flags (kbase + g) with bits := r.bits }) { bits := 0, flags := 0#9, kgrp := none }
  if bitAt o.ws 15 then
    let sum := FVal.add 0 (NumFmt.f36.decode old.toNat) (NumFmt.f36.decode a.bits)
    let r := arrRound o.ovmode sum
    { a.event r.flags (kbase + s.k) with bits := r.bits }
  else a

/-- One int36 accumulator element: exact sums, the final addition clamps (R188). -/
def accInt (o : ArrOp) (fa : NumFmt) (s : ASet) (pe : Plate) (m j : Nat) (row : List Word) (old : Word) : AccRes :=
  let sum := ((List.range s.k).map (fun i =>
    ((cellProds o fa s pe m j i row).map (fun p => p.v.v.scaled 0)).sum)).sum
  let tot := if bitAt o.ws 15 then old.toInt + sum else sum
  let c := clampI (-(2 ^ 35)) (2 ^ 35 - 1) tot
  let a : AccRes := { bits := NumFmt.int36.encodeInt c, flags := 0#9, kgrp := none }
  if c = tot then a else a.event fSAT (fld o.ws 0 12 + s.k)

/-- The flags of a pass in ARR_STATUS order, from AFLAGS order: INV, OVF, SAT, NANR, INFR. -/
def arrFlags (f : Flg) : Nat :=
  (f.getLsbD 0).toNat + 2 * (f.getLsbD 2).toNat + 4 * (f.getLsbD 5).toNat + 8 * (f.getLsbD 6).toNat + 16 * (f.getLsbD 7).toNat

/-- Swaps the sets of a partition when SWAP is 1 (R193). -/
def Core.swapSets (k : Core) (o : ArrOp) : Core :=
  if bitAt o.ws 14 then
    ((k.setAset (fgSel o.part) (k.aset (bgSel o.part))).setAset (bgSel o.part) (k.aset (fgSel o.part))).sdirty
  else k

/-- A pass writes its last row: pc, its flags, ARR_STATUS, AFLAGS and a trap that TRAPEN asks for. -/
def Core.completePass (k0 : Core) (o : ArrOp) : Core :=
  let k := k0.swapSets o
  let s := k.aset (fgSel o.part)
  let pa := k.plate o.p1
  let pa2 := k.plate (o.p1 + 1)
  let pe := k.plate o.p2
  let fa := codeFmt pa.fmt
  let acc := bitAt o.ws 15
  let pc0 := k.plate o.p0
  let pc := if acc then pc0.zeroed else pc0
  let isInt := pc.fmt = 11
  let rowsM := pc.nrows
  let data := (List.range rowsM).map (fun m => streamRow o pa pa2 s.sparse m)
  let skip (m : Nat) : Bool :=
    bitAt o.ws 16 && ((data.drop (m / 4 * 4)).take 4).all (fun r => r.all (fun w => w = 0#36))
  let res := (List.range rowsM).map (fun m =>
    if skip m then []
    else (List.range s.n).map (fun j =>
      if isInt then accInt o fa s pe m j (data.getD m []) (pc.slot m j)
      else accF36 o fa s pe m j (data.getD m []) (pc.slot m j)))
  let pc := (res.zipIdx).foldl (fun (p : Plate) (r : List AccRes × Nat) =>
    if r.1.isEmpty then p else p.setRow r.2 (r.1.map (fun a => word a.bits))) pc
  let flat := (res.zipIdx).flatMap (fun r => (r.1.zipIdx).map (fun a =>
    ({ flags := a.1.flags, row := r.2, slot := a.2, kgrp := min 4095 (a.1.kgrp.getD 0) } : PlateFlag)))
  let f := flat.foldl (fun a e => a ||| e.flags) 0#9
  let k := (k.setPlate o.p0 ((pc.setState 1).note 1 flat)).dropLatch o.p0 |>.pdirty
  let k := { k with arr := k.arr ||| word (arrFlags f * 2 ^ 15) }
  let k := k.note 6 (flat.map (fun e => { flags := e.flags, plate := o.p0, row := e.row, slot := e.slot }))
  if fld k.arr 20 5 &&& arrFlags f ≠ 0 then
    { k with pTraps := k.pTraps ++ [{ cause := 0x0B, info := word (f.toNat + 2 ^ 9 + o.p0 * 2 ^ 10), fa := 0#72, level := o.level }] }
  else k

/-- One array instruction completes. -/
def Core.completeArr (k : Core) (o : ArrOp) : Core :=
  match o.kind with
  | .ld | .ldx | .ldsp => k.completeLoad o
  | _ => k.completePass o

/-- The oldest array instruction completes. -/
def Core.arrStep (k : Core) : Core :=
  match k.arrQ with
  | [] => k
  | o :: r => { k with arrQ := r }.completeArr o

/-- Every array instruction in flight completes, in order (R208) (DEDUCED, log 23). -/
def Core.drain (k : Core) : Core := k.arrQ.foldl (fun k o => k.completeArr o) { k with arrQ := [] }

/-- AFLAGS and AFPOS after the elements of one instruction that is no array instruction: where a record is to be written, the array instructions in flight, which come before it in program order, complete first (R135). -/
def Core.noteInOrder (k : Core) (unit : Nat) (l : List ElemFlag) : Core :=
  if !bitAt k.aflags 9 && (firstFlagged l).isSome then k.drain.note unit l else k.note unit l

/-- Every outstanding result and every array instruction completes, as before a handler's first instruction. -/
def Core.settle (k : Core) : Core := k.drain.landAll

end Sys2Proof.Machine
end

