-- ==== Sys2Proof/Machine/Ops.lean ====
section
/-!
DEFINITION. The shared operations over the module's state: cores and registers, the Alidade log and host events, addresses and translation (R65–R75), memory cells, signals and events, and taking an exception and returning from one (R211–R223).
-/
namespace Sys2Proof.Machine

/-! ## Cores and control-window registers -/

/-- Core `c`. -/
def State.core (s : State) (c : Nat) : Core := Tbl.get Core.reset s.cores c

/-- Writes core `c`. -/
def State.setCore (s : State) (c : Nat) (k : Core) : State := { s with cores := Tbl.set Core.reset s.cores c k }

/-- Changes core `c`. -/
def State.modCore (s : State) (c : Nat) (f : Core → Core) : State := s.setCore c (f (s.core c))

/-- Core `c` is enabled on this variant. -/
def State.hasCore (s : State) (c : Nat) : Bool := decide (c < s.variant.cores)

/-- Core `c` is retired (R386). -/
def State.isRetired (s : State) (c : Nat) : Bool := Tbl.get false s.retired c

/-- The control-window register at window offset `o`, as stored. -/
def State.ctlGet (s : State) (o : Nat) : Word := Tbl.get (ctlReset s.variant o) s.ctl o

/-- Stores the control-window register at window offset `o`. -/
def State.ctlSet (s : State) (o : Nat) (w : Word) : State :=
  { s with ctl := Tbl.set (ctlReset s.variant o) s.ctl o w }

/-- A field of a control-window register. -/
def State.ctlFld (s : State) (o lo len : Nat) : Nat := fld (s.ctlGet o) lo len

/-- Writes a field of a control-window register. -/
def State.ctlPut (s : State) (o lo len v : Nat) : State := s.ctlSet o (setFld (s.ctlGet o) lo len v)

/-- Adds to a saturating counter field of a control-window register. -/
def State.ctlCount (s : State) (o lo len : Nat) : State := s.ctlPut o lo len (min (s.ctlFld o lo len + 1) (2 ^ len - 1))

/-- The tick number as a natural number. -/
def State.now (s : State) : Nat := s.tickCount.toNat

/-- A 36-bit tick value names the current tick or one that has passed (R18). -/
def State.tickDue (s : State) (v : Word) : Bool :=
  let d := (v - word s.now).toNat
  d = 0 || decide (2 ^ 35 ≤ d)

/-- How far ahead of the current tick a 36-bit tick value lies; none when it has passed (R18). -/
def State.tickAhead (s : State) (v : Word) : Option Nat :=
  let d := (v - word s.now).toNat
  if d < 2 ^ 35 then some d else none

/-- Draws a fresh number for a free value (DESIGN CHOICE, log 7). -/
def State.fresh (s : State) : Nat × State := (s.freeCtr, { s with freeCtr := s.freeCtr + 1 })

/-- Records what the device sends (DESIGN CHOICE, log 7). -/
def State.emit (s : State) (e : Emit) : State := { s with out := e :: s.out }

/-! ## Host registers, messages and the Alidade log (R401, R410, R411) -/

/-- The BAR0 register at an offset. -/
def State.barGet (s : State) (o : Nat) : Reg32 := Tbl.get (bar0Reset o) s.bar0 o

/-- Writes the BAR0 register at an offset. -/
def State.barSet (s : State) (o : Nat) (w : Reg32) : State := { s with bar0 := Tbl.set (bar0Reset o) s.bar0 o w }

/-- Vector `v` can be sent: MSI-X enabled, function not masked, vector not masked. -/
def State.msixOpen (s : State) (v : Nat) : Bool :=
  bitAt s.msixCtl 15 && !bitAt s.msixCtl 14 && !bitAt (s.barGet (0x20000 + 16 * v + 12)) 0

/-- Sends the message of vector `v`, or makes it pend while it is masked. -/
def State.msix (s : State) (v : Nat) : State :=
  if s.msixOpen v then s.emit (.msix v)
  else
    let o := 0x28000 + 4 * (v / 32)
    s.barSet o (setBitAt (s.barGet o) (v % 32) true)

/-- Sets a HOST_EVENTS bit; a bit newly set sends the message when EN is 1. -/
def State.hostEvent (s : State) (b : Nat) : State :=
  let w := s.barGet 0x08
  let s1 := s.barSet 0x08 (setBitAt w b true)
  let c := s.barGet 0x0C
  if bitAt w b = false ∧ bitAt c 11 = true then s1.msix (fld c 0 11) else s1

/-- Adds an entry to the Alidade log and sets HOST_EVENTS.LOG_ENTRY (R410). -/
def State.logAdd (s : State) (kind unit detail : Nat) : State :=
  let e : LogEntry := { tick := s.now % 2 ^ 32, kind := kind, unit := unit, detail := detail % 2 ^ 64 }
  ({ s with log := s.log ++ [e] } : State).hostEvent 9

/-- Reports a machine check to Alidade (R457, R410). -/
def State.machineCheck (s : State) (unit reason detail : Nat) : State :=
  s.logAdd 0x0007 unit (reason + detail * 2 ^ 8)

/-! ## Signals and events (R211–R213, R386, R442) -/

/-- A core takes no signal: it is retired or held in core reset. -/
def State.deaf (s : State) (c : Nat) : Bool :=
  s.isRetired c || (match (s.core c).run with | .atReset => true | .frozen => true | _ => false)

/-- Signals cause 0x12 at a core; signals of one source and index that pend together are one (R213). -/
def State.signal (s : State) (c kind index level : Nat) : State :=
  if s.deaf c then s.logAdd 0x000B c (0x12 + kind * 2 ^ 8 + index * 2 ^ 11)
  else s.modCore c (fun k =>
    if k.pSigs.any (fun g => g.kind == kind && g.index == index) then k
    else { k with pSigs := k.pSigs ++ [{ kind := kind, index := index, level := level }] })

/-- Raises an event 0x20–0x3F at K on a core. -/
def State.event (s : State) (c cause : Nat) (info : Word) : State :=
  if s.deaf c then s.logAdd 0x000B c cause
  else s.modCore c (fun k => { k with pEvents := k.pEvents ++ [(cause, info)] })

/-- Sets bits of an event register and raises its cause at its event core with the bits newly set (R35, R320, R350). -/
def State.raiseBits (s : State) (reg evt cause : Nat) (bits : Word) : State :=
  let old := s.ctlGet reg
  let new := bits &&& ~~~ old
  if new = 0#36 then s
  else
    let s1 := s.ctlSet reg (old ||| bits)
    let e := s1.ctlGet evt
    if bitAt e 8 then s1.event (fld e 0 8) cause new else s1

/-- TICK_EVENTS. -/
def State.tickEvent (s : State) (bit : Nat) : State := s.raiseBits 0x50 0x58 0x20 (at_ 36 0 (2 ^ bit))
/-- FAB_EVENTS. -/
def State.fabEvent (s : State) (bit : Nat) : State := s.raiseBits 0x200070 0x200078 0x21 (at_ 36 0 (2 ^ bit))
/-- CE_EVENTS. -/
def State.ceEvent (s : State) (bit : Nat) : State := s.raiseBits 0x70010 0x70018 0x30 (at_ 36 0 (2 ^ bit))

/-! ## Hardware semaphores (R249, R250) -/

/-- Window offset of SEM_COUNT of a semaphore. -/
def semOff (i : Nat) : Nat := 0x10000 + 16 * i

/-- Leaves SEM_COUNT at a value; an increase signals when ARM is 1 and sends a bound host message (R250, R411) (DEDUCED, log 16); an absent semaphore is not written (R8). -/
def State.semPut (s : State) (i : Nat) (v : Word) : State :=
  if s.variant.semas ≤ i then s else
  let old := s.ctlGet (semOff i)
  let s0 := s.ctlSet (semOff i) v
  if old.toInt < v.toInt then
    let s1 : State := { s0 with semUps := Tbl.modify 0 s0.semUps i (· + 1) }
    let c := s1.ctlGet (semOff i + 8)
    let s2 :=
      if bitAt c 9 then
        (s1.ctlSet (semOff i + 8) (if bitAt c 10 then setBitAt c 9 false else c)).signal (fld c 0 8) 0 i (fld c 8 1)
      else s1
    let h := Tbl.get 0 s2.semHost i
    if h ≠ 0 ∧ h % 2 = 0 then ({ s2 with semHost := Tbl.set 0 s2.semHost i (h - 1) } : State).msix (h / 2 - 1) else s2
  else s0

/-- AMOADD on a semaphore. -/
def State.semAdd (s : State) (i : Nat) (v : Word) : State := s.semPut i (s.ctlGet (semOff i) + v)

/-! ## Addresses (R65–R69, R242) -/

/-- This device's id, when shape and coordinates are set. -/
def State.ownId (s : State) : Option Nat :=
  let w := s.ctlGet 0x200010
  if bitAt w 14 then some (fld w 0 14) else none

/-- LOCAL of an address. -/
def localOf (a : Pair) : Nat := fld a 0 44
/-- DEVICE of an address. -/
def deviceOf (a : Pair) : Nat := fld a 44 14
/-- The pair of a local address with SELF = 1. -/
def selfPair (l : Nat) : Pair := BitVec.ofNat 72 (2 ^ 58 + l % 2 ^ 44)
/-- Bits [71:59] are not all zero. -/
def badTop (a : Pair) : Bool := fld a 59 13 ≠ 0

/-- The address is on this device. -/
def State.onDevice (s : State) (a : Pair) : Bool := bitAt a 58 || s.ownId == some (deviceOf a)

/-- Start of core window `n`. -/
def coreWindow (n : Nat) : Nat := 0x20000000000 + n * 0x100000
/-- Start of the device control windows. -/
def ctlBase : Nat := 0x20100000000

/-- What lies at a physical local address (R67). -/
inductive Region where
  | gddr
  /-- Local store of a core, at an offset. -/
  | ls (core off : Nat)
  /-- Control window at an offset. -/
  | ctl (off : Nat)
  | cxl
  /-- A bus-error range. -/
  | bad
  deriving DecidableEq, Repr

/-- The region of a physical local address. -/
def State.region (s : State) (pa : Nat) : Region :=
  if pa < s.variant.gddrEnd then .gddr
  else if pa < 0x20000000000 then .bad
  else if pa < ctlBase then
    let n := (pa - 0x20000000000) / 0x100000
    let o := pa % 0x100000
    if s.hasCore n && !s.isRetired n && decide (o < 0xC0000) then .ls n o else .bad
  else if pa < ctlBase + 0x400000 then (if ctlInBlock (pa - ctlBase) then .ctl (pa - ctlBase) else .bad)
  else if pa < 0x40000000000 then .bad
  else if pa < 0x100000000000 then .cxl
  else .bad

/-- A decoder range holds a physical address. -/
def CxlRange.holds (r : CxlRange) (pa : Nat) : Bool := r.enabled && decide (r.base ≤ pa) && decide (pa < r.base + r.size)

/-- Port and cell key of a CXL tier address under one decoder range: interleaved ranges alternate ports every 4 KiB. -/
def CxlRange.place (r : CxlRange) (port pa : Nat) : Nat × Nat :=
  let off := pa - r.base
  let (p, d) := if r.interleave then ((port + off / 4096) % 2, r.dpa + off / 8192 * 4096 + off % 4096) else (port, r.dpa + off)
  (p, 2 ^ 44 * (1 + p) + d)

/-- The key of the cell that holds the byte at a physical address; none where no expander answers (R242). -/
def State.cellKey (s : State) (pa : Nat) : Option Nat :=
  match s.region pa with
  | .gddr => some pa
  | .ls _ _ => some pa
  | .cxl =>
    match s.cxlRanges.find? (fun e => e.2.holds pa) with
    | none => none
    | some (i, r) =>
      let (p, key) := r.place (i / 8) pa
      if Tbl.get false s.cxlDown p then none else some key
  | _ => none

/-! ## Memory cells -/

/-- What a byte that nothing has written reads as: GDDR7 and local stores are filled with zeros (R436, R441) (DESIGN CHOICE, log 6). -/
def memDefault : Byte := 0#8

/-- One byte of memory by key. -/
def State.byteAt (s : State) (key : Nat) : Byte := Tbl.get memDefault s.mem key

/-- `n` bytes from a physical address; a byte without a cell reads as zero. -/
def State.bytesAt (s : State) (pa n : Nat) : List Byte :=
  (List.range n).map (fun i => match s.cellKey (pa + i) with | some k => s.byteAt k | none => 0#8)

/-- The word slot at a physical address (R64). -/
def State.wordAt (s : State) (pa : Nat) : Word := wordOfBytes (s.bytesAt pa 8)

/-- Writes bytes into cells from a key on. -/
def memWrite (m : Tbl Byte) (key : Nat) (l : List Byte) : Tbl Byte := Tbl.setMany memDefault m key l

/-- Regions of R284 that a write of ranges touches advance their generation counters, each once (R253) (DEDUCED, log 13). -/
def State.bumpAny (s : State) (l : List (Nat × Nat)) : State :=
  (s.ctl.filter (fun e => decide (0x30000 ≤ e.1) && decide (e.1 < 0x40000) && e.1 % 16 == 0 && bitAt e.2 33)).foldl
    (fun t e =>
      let size := 0x10000 * 2 ^ fld e.2 28 5
      let base := fld e.2 0 28 * 0x10000 / size * size
      if l.any (fun p => decide (p.1 < base + size) && decide (base < p.1 + p.2)) then t.ctlSet (e.1 + 8) (t.ctlGet (e.1 + 8) + 1#36) else t) s

/-- Regions of R284 that a write of `n` bytes at `pa` touches advance their generation counters (R253). -/
def State.bumpGens (s : State) (pa n : Nat) : State := s.bumpAny [(pa, n)]

/-- Clears the poison of every line, and the parity error of every local store slot, that a write of `n` bytes at key `k` covers whole (R227, R240). -/
def State.scrub (s : State) (k n : Nat) : State :=
  { s with
    poison := s.poison.filter (fun e => !(decide (k ≤ e.1 * 64) && decide (e.1 * 64 + 64 ≤ k + n)))
    lsBad := s.lsBad.filter (fun e => !(decide (k ≤ e.1 * 8) && decide (e.1 * 8 + 8 ≤ k + n))) }

/-- Cuts `n` bytes from `pa` on at the ends of 64-byte lines; `f` bounds the pieces. -/
def cutLines (pa n : Nat) : Nat → List (Nat × Nat)
  | 0 => []
  | f + 1 => if n = 0 then [] else
    let m := min n (64 - pa % 64)
    (pa, m) :: cutLines (pa + m) (n - m) f

/-- The pieces of an access whose cells adjoin: lines in the CXL tier, where decoder ranges place the next line elsewhere, one piece otherwise (R242). -/
def State.linePieces (s : State) (pa n : Nat) : List (Nat × Nat) :=
  if s.region pa = .cxl then cutLines pa n (n / 64 + 2) else [(pa, n)]

/-- Writes one piece: cells and cleared errors. -/
def State.cellsPut (s : State) (pa : Nat) (l : List Byte) : State :=
  match s.cellKey pa with
  | none => s
  | some k => ({ s with mem := memWrite s.mem k l } : State).scrub k l.length

/-- Writes pieces one after the other. -/
def State.cellsPutAll (s : State) (ps : List (Nat × Nat)) (l : List Byte) : State :=
  match ps with
  | [] => s
  | p :: r => (s.cellsPut p.1 (l.take p.2)).cellsPutAll r (l.drop p.2)

/-- A write by the device's own controllers, which advances no generation counter (R253). -/
def State.memQuiet (s : State) (pa : Nat) (l : List Byte) : State := s.cellsPutAll (s.linePieces pa l.length) l

/-- Writes bytes at a physical address as one access: cells, cleared errors, generation counters. -/
def State.memPut (s : State) (pa : Nat) (l : List Byte) : State :=
  if (s.cellKey pa).isSome then (s.memQuiet pa l).bumpGens pa l.length else s

/-- SRC of a detected error that a read of one piece meets: 0 local store, 3 GDDR7, 4 CXL tier (R222, R240). -/
def State.cellsErr (s : State) (p : Nat × Nat) : Option Nat :=
  match s.cellKey p.1 with
  | none => none
  | some k =>
    match s.region p.1 with
    | .ls _ _ => if s.lsBad.any (fun e => decide (e.1 * 8 < k + p.2) && decide (k < e.1 * 8 + 8)) then some 0 else none
    | r =>
      if s.poison.any (fun e => decide (e.1 * 64 < k + p.2) && decide (k < e.1 * 64 + 64)) then
        some (if r = .cxl then 4 else 3)
      else none

/-- SRC of a detected error that a read of `n` bytes at `pa` meets. -/
def State.readErr (s : State) (pa n : Nat) : Option Nat := (s.linePieces pa n).findSome? s.cellsErr

/-- SRC of a detected error that a write of `n` bytes at `pa` meets in a line or slot that it covers only in part. -/
def State.writeErr (s : State) (pa n : Nat) : Option Nat :=
  (s.linePieces pa n).findSome? (fun p => match s.cellKey p.1 with
    | none => none
    | some k => (s.scrub k p.2).cellsErr p)

/-! ## The Ephemeris ring (R391, R392) -/

/-- Sets bits of EPH_EVENTS; a bit newly set increments EPH_EVT.SEM when EN is 1. -/
def State.ephEvent (s : State) (bits : Nat) : State :=
  let old := s.ctlGet 0x60060
  let new := word bits &&& ~~~ old
  if new = 0#36 then s
  else
    let s1 := s.ctlSet 0x60060 (old ||| new)
    let e := s1.ctlGet 0x60068
    if bitAt e 12 then s1.semAdd (fld e 0 12) 1#36 else s1

/-- Start of the Ephemeris ring. -/
def State.ringBase (s : State) : Nat := s.ctlFld 0x60010 0 14 * 2 ^ 30
/-- Bytes of the Ephemeris ring. -/
def ringSize : Nat := 2 ^ 33

/-- The bytes of an entry: two word slots, the payload, zero bytes up to 16. -/
def entryBytes (typ step attempt : Nat) (payload : List Word) : List Byte :=
  let body := (word (typ + payload.length * 2 ^ 8) :: word (step + attempt * 2 ^ 16) :: payload).flatMap wordBytes
  body ++ List.replicate ((16 - body.length % 16) % 16) 0#8

/-- Appends an entry to the record that is open in record mode; one that would reach EPH_REL is not written and fails the record. -/
def State.ephAppend (s : State) (typ : Nat) (payload : List Word) : State :=
  let st := s.ctlGet 0x60008
  if fld st 0 2 ≠ 1 ∨ bitAt st 2 = false then s
  else
    let step := fld st 5 16
    let attempt := fld st 21 8
    let e := entryBytes typ step attempt payload
    let wr := s.ctlFld 0x60018 0 33
    let rel := s.ctlFld 0x60020 0 33
    let room := if rel = wr then ringSize else (rel + ringSize - wr) % ringSize
    let wrap := ringSize < wr + e.length
    let want := if wrap then ringSize - wr + e.length else e.length
    if room ≤ want then
      (({ s with eph := { s.eph with incomplete := true } } : State).ctlPut 0x60008 4 1 1).ephEvent 3
    else
      let s1 := if wrap then s.memQuiet (s.ringBase + wr) (entryBytes 0x0F step attempt []) else s
      let at_ := if wrap then 0 else wr
      let s2 := s1.memQuiet (s1.ringBase + at_) e
      (s2.ctlPut 0x60018 0 33 ((at_ + e.length) % ringSize)).ctlPut 0x60008 4 1 0

/-- A FAULT entry: kind 0 poisoned line, 1 third fault, 2 retirement, 3 port left UP, 4 LEFT; the address is known for a poisoned line only. -/
def State.ephFault (s : State) (kind unit : Nat) (pa : Option Nat) : State :=
  let p : Pair := match pa with
    | some a => selfPair a
    | none => mkPair (Config.ephFault kind unit 2) (Config.ephFault kind unit 1)
  s.ephAppend 0x07 [Config.ephFault kind 0 0, lo36 p, hi36 p, word s.now]

/-! ## Tensor caches and horizon classes (R231–R234) -/

/-- H(class) of R233. -/
def horizonOf : Nat → Nat | 0 => 0 | 1 => 1 | 2 => 2 | 3 => 4 | 4 => 8 | 5 => 16 | 6 => 32 | _ => 63

/-- Home die of a physical address (R230, R238). -/
def State.homeDie (s : State) (pa : Nat) : Nat :=
  match s.region pa with
  | .cxl => pa / 4096 % 4 % s.variant.dies
  | _ =>
    match s.variant with
    | .m9440 => (pa / 2 ^ 8 % 16 ^^^ pa / 2 ^ 20 % 16) / 4
    | .m9220 => (pa / 2 ^ 8 % 8 ^^^ pa / 2 ^ 20 % 8) / 4

/-- Window offset of the block of a compute die (R69). -/
def dieOff (d : Nat) : Nat := 0x80000 + d * 0x10000

/-- GDDR7 device of a physical address (R238). -/
def State.gddrDevice (s : State) (pa : Nat) : Nat :=
  match s.variant with
  | .m9440 => pa / 2 ^ 8 % 16 ^^^ pa / 2 ^ 20 % 16
  | .m9220 => pa / 2 ^ 8 % 8 ^^^ pa / 2 ^ 20 % 8

/-- A die logs a memory error event: KIND 0 transient, 1 poisoned, 2 refetched, 3 on-die report; SRC as cause 0x0E (R241). -/
def State.memErrLog (s : State) (die pa src kind : Nat) : State :=
  let o := dieOff die + 0x2000
  let s1 := if kind < 3 then s.ctlCount (o + 0x18) (12 * kind) 12 else s
  let w := s1.ctlGet o
  if bitAt w 0 then s1.ctlPut o 12 1 1
  else
    let dev := if src = 3 then s.gddrDevice pa else 0
    let chan := if src = 3 then pa / 64 % 4 else 0
    let w1 := setFld (setFld (setFld (setFld (setFld w 0 1 1) 1 3 src) 4 2 kind) 6 4 dev) 10 2 chan
    ((s1.ctlSet o w1).ctlSet (o + 8) (word (pa / 64 * 64))).ctlSet (o + 0x10) (word (pa / 64 * 64 / 2 ^ 36 % 256))

/-- A read met a failing or poisoned line: the home die logs KIND 1 and Alidade is notified (R240); a local store slot is no line. -/
def State.memFail (s : State) (src pa : Nat) : State :=
  let src := if src = 6 then (if s.region pa = .gddr then 3 else 0) else src
  if src = 2 ∨ src = 3 ∨ src = 4 then
    ((s.memErrLog (s.homeDie pa) pa src 1).logAdd 0x0008 (s.homeDie pa) (pa % 2 ^ 44 + src * 2 ^ 44)).ephFault 0 0 (some pa)
  else s

/-- The class of an access: its descriptor's, the die's region table's, its page's, or TC_CTRL's (R234). -/
def State.horizonClass (s : State) (die pa : Nat) (desc page : Option Nat) : Nat :=
  match desc with
  | some c => c
  | none =>
    let hit := (List.range 64).find? (fun n =>
      let b := s.ctlGet (dieOff die + 0x100 + 16 * n)
      let l := s.ctlGet (dieOff die + 0x108 + 16 * n)
      bitAt b 31 && decide (fld b 0 28 ≤ pa / 0x10000) && decide (pa / 0x10000 < fld l 0 28))
    match hit with
    | some n => fld (s.ctlGet (dieOff die + 0x100 + 16 * n)) 28 3
    | none => page.getD (s.ctlFld (dieOff die) 0 3)

/-- The victim of a fill: the line of the set with the lowest REMAIN that class 7 does not protect, the oldest among equals. -/
def tcVictim (l : List TcLine) : Option TcLine :=
  let open_ := l.filter (fun t => t.cls ≠ 7)
  match (if open_.isEmpty then l else open_) with
  | [] => none
  | t :: r => some (r.foldl (fun a b => if b.remain < a.remain then b else a) t)

/-! ### Copies of a line, and the directory (R229, R230) -/

/-- Sets of a tensor cache: 384 MiB in 16 ways of 64-byte lines (R233). -/
def tcSets : Nat := 393216
/-- The set of a die's tensor cache that a line falls into (DESIGN CHOICE, log 31). -/
def tcSetOf (die line : Nat) : Nat := Config.tcSet die line % tcSets
/-- Sets of an L1 cache: 64 KiB in 4 ways (R226). -/
def l1Sets : Nat := 256
/-- The set of an L1 cache that a line falls into (DESIGN CHOICE, log 31). -/
def l1SetOf (line : Nat) : Nat := Config.l1Set line % l1Sets

/-- A die's copy of a line. -/
def State.tcFind (s : State) (die line : Nat) : Option TcLine := (Tbl.get [] s.tcLines die).find? (fun t => t.line == line)

/-- The directory entry of a line at its home die: the dies that hold it, and one that holds it modified (R230). -/
def State.directory (s : State) (line : Nat) : List Nat × Option Nat :=
  let dies := (List.range s.variant.dies).filter (fun d => (s.tcFind d line).isSome)
  (dies, dies.find? (fun d => (s.tcFind d line).any (fun t => t.modified)))

/-- The L1 data cache of core `c` holds a line. -/
def State.l1dHolds (s : State) (c line : Nat) : Bool := (Tbl.get [] s.l1d c).contains line

/-- Invalidates a line in the L1 data caches of a die, except in the core that stores (R229). -/
def State.l1Purge (s : State) (die line : Nat) (keep : Option Nat) : State :=
  { s with l1d := (s.l1d.map (fun e => if e.1 / 48 = die ∧ keep ≠ some e.1 then (e.1, e.2.filter (fun n => n != line)) else e)).filter (fun e => !e.2.isEmpty) }

/-- A line in a list of lines with room made for it in its set: 4 ways (R226) (DESIGN CHOICE, log 31). -/
def l1Put (c line : Nat) (l : List Nat) : List Nat :=
  if l.contains line then l
  else
    let mates := l.filter (fun n => l1SetOf n == l1SetOf line)
    let out := if mates.length < 4 then none else mates[Config.l1Victim c line % mates.length]?
    l.filter (fun n => out != some n) ++ [line]

/-- A line leaves a die's tensor cache, and with it every L1 copy on the die (R229). -/
def State.tcLeave (s : State) (die line : Nat) : State :=
  ({ s with tcLines := Tbl.modify [] s.tcLines die (fun l => l.filter (fun t => t.line != line)) } : State).l1Purge die line none

/-- A line leaves every cache: what a write that no cache of this device keeps, or poison at its home, does to its copies. -/
def State.tcLeaveAll (s : State) (line : Nat) : State := (s.directory line).1.foldl (fun t d => t.tcLeave d line) s

/-- What the directory does with the copies of other dies before a die's access: a write takes them out; a read leaves a modified copy written back and clean (R231) (DESIGN CHOICE, log 31). -/
def State.dirTake (s : State) (die line : Nat) (write : Bool) : State :=
  if write then ((s.directory line).1.filter (fun d => d != die)).foldl (fun t d => t.tcLeave d line) s
  else { s with tcLines := s.tcLines.map (fun e => if e.1 = die then e else (e.1, e.2.map (fun t => if t.line = line then { t with modified := false } else t))) }

/-- The class a line takes: at most KEEP_WAYS ways of the other lines of its set hold class 7, else it is class 6 (R234) (DEDUCED for hits, log 31). -/
def State.tcClass (s : State) (die : Nat) (mates : List TcLine) (cls : Nat) : Nat :=
  if cls = 7 ∧ s.ctlFld (dieOff die) 3 4 ≤ (mates.filter (fun t => t.cls == 7)).length then 6 else cls

/-- One access that reaches a die's tensor cache: the directory's part, then hit or fill with class, REMAIN and victim (R230–R234). Pages of MT 2 are never cached (R79); a write to one takes the line out of every cache (DESIGN CHOICE, log 31). -/
def State.tcTouch (s : State) (die pa : Nat) (desc : Option Nat) (page : Option PageAttr) (write : Bool) : State :=
  match s.region pa with
  | .gddr | .cxl =>
    let line := pa / 64
    if page.any (fun p => p.mt == 2) then (if write then s.tcLeaveAll line else s.dirTake s.variant.dies line false)
    else
      let cls := s.horizonClass die pa desc (page.map (fun p => p.hz))
      let s := s.dirTake die line write
      let ls := Tbl.get [] s.tcLines die
      match ls.find? (fun t => t.line == line) with
      | some h =>
        let c := if cls = 0 then h.cls else s.tcClass die (ls.filter (fun t => t.set == h.set && t.line != line)) cls
        { s with tcLines := Tbl.set [] s.tcLines die (ls.map (fun t =>
            if t.line = line then { t with cls := c, remain := horizonOf c, modified := t.modified || write } else t)) }
      | none =>
        if cls = 0 then s
        else
          let set := tcSetOf die line
          let mates := ls.filter (fun t => t.set == set)
          let c := s.tcClass die mates cls
          let s1 : State := { s with tcLines := Tbl.set [] s.tcLines die (ls.map (fun t => if t.set = set then { t with remain := t.remain - 1 } else t)) }
          let s2 := if mates.length < 16 then s1
            else match tcVictim ((Tbl.get [] s1.tcLines die).filter (fun t => t.set == set)) with
              | none => s1
              | some v => s1.tcLeave die v.line
          { s2 with tcLines := Tbl.modify [] s2.tcLines die (fun l => l ++ [{ line := line, set := set, cls := c, remain := horizonOf c, modified := write }]) }
  | _ => s

/-- A read by core `c`: a line in its L1 data cache is a hit; else the tensor cache of its die serves it, and a load from a page of MT 0 allocates in the L1 data cache where the tensor cache holds the line (R228, R229). -/
def State.coreRead (s : State) (c pa : Nat) (page : Option PageAttr) : State :=
  let line := pa / 64
  if s.l1dHolds c line && !page.any (fun p => p.mt == 2) then s
  else
    let s1 := s.tcTouch (c / 48) pa none page false
    if page.any (fun p => p.mt != 0) ∨ (s1.tcFind (c / 48) line).isNone then s1
    else
      let old := Tbl.get [] s1.l1d c
      { s1 with l1d := Tbl.set [] s1.l1d c (l1Put c line old) }

/-- A store by core `c`: it writes through to the tensor cache of its die; other L1 copies of the line go first, and its own is updated if present (R228, R229). -/
def State.coreWrite (s : State) (c pa : Nat) (page : Option PageAttr) : State :=
  (s.l1Purge (c / 48) (pa / 64) (some c)).tcTouch (c / 48) pa none page true

/-- An access that does not come from a core: the tensor cache of a die serves it; a write takes every L1 copy on that die out first (R229, R231). -/
def State.agentTouch (s : State) (die pa : Nat) (desc : Option Nat) (page : Option PageAttr) (write : Bool) : State :=
  (if write then s.l1Purge die (pa / 64) none else s).tcTouch die pa desc page write

/-- An atomic on a line: it is performed in the tensor cache of the line's home die (R231). -/
def State.atomicTouch (s : State) (pa : Nat) (page : Option PageAttr) : State := s.agentTouch (s.homeDie pa) pa none page true

/-! ## Translation (R70–R75) -/

/-- Why an access does not go ahead: page fault with LEVEL and REASON, bus error with REASON, or a detected error with SRC and its physical address. -/
inductive XErr where
  | page (level reason : Nat)
  | bus (reason : Nat)
  | mem (src pa : Nat)
  deriving DecidableEq, Repr

/-- What an access needs of a page: reading, writing, both, or fetching. -/
inductive Need where
  | read | write | both | fetch
  deriving DecidableEq, Repr

/-- ACCESS of the info words: an atomic reports write (R99). -/
def Need.code : Need → Nat | .read => 0 | .write => 1 | .both => 1 | .fetch => 2

/-- The permissions of an entry suffice (R71). -/
def Need.ok (n : Need) (e : BitVec 64) : Bool :=
  match n with
  | .read => bitAt e 2
  | .write => bitAt e 3
  | .both => bitAt e 2 && bitAt e 3
  | .fetch => bitAt e 4

/-- A table of `size` bytes at `pa` lies in the usable GDDR7. -/
def State.tableOk (s : State) (pa size : Nat) : Bool := decide (pa + size ≤ s.variant.gddrEnd)

/-- One level of the walk, with what is below it: `size` is the page a leaf maps, `next` the alignment and size of the next table. -/
def State.walkEntry (s : State) (lvl : Nat) (need : Need) (level base index size next : Nat) (off : Nat)
    (down : Nat → Except XErr (Nat × PageAttr)) : Except XErr (Nat × PageAttr) :=
  let ea := base + index * 8
  match s.readErr ea 8 with
  | some src => .error (.mem src ea)
  | none =>
    let e := BitVec.ofNat 64 (natOfBytes (s.bytesAt ea 8))
    let pa := fld e 12 44
    if bitAt e 0 = false then .error (.page level 0)
    else if bitAt e 1 then
      if fld e 6 2 = 3 ∨ fld e 11 1 ≠ 0 ∨ fld e 56 8 ≠ 0 ∨ pa % size ≠ 0 then .error (.page level 3)
      else if need.ok e = false then .error (.page level 1)
      else if lvl = 2 ∧ bitAt e 5 = false then .error (.page level 2)
      else .ok (pa + off, { mt := fld e 6 2, hz := fld e 8 3 })
    else if next = 0 ∨ fld e 11 1 ≠ 0 ∨ fld e 56 8 ≠ 0 ∨ pa % next ≠ 0 ∨ s.tableOk pa next = false then .error (.page level 3)
    else down pa

/-- The three-level walk of a local address (R71, R75): physical address, MT and HORIZON_DEF (DESIGN CHOICE, log 9). -/
def State.walk (s : State) (lvl : Nat) (need : Need) (l : Nat) : Except XErr (Nat × PageAttr) :=
  let root := fld s.mxroot 0 27 * 2 ^ 17
  if s.tableOk root 0x20000 = false then .error (.page 0 3)
  else
    s.walkEntry lvl need 1 root (l / 2 ^ 30) (2 ^ 30) 4096 (l % 2 ^ 30) (fun b2 =>
      s.walkEntry lvl need 2 b2 (l / 2 ^ 21 % 512) (2 ^ 21) 256 (l % 2 ^ 21) (fun b3 =>
        s.walkEntry lvl need 3 b3 (l / 2 ^ 16 % 32) (2 ^ 16) 0 (l % 2 ^ 16) (fun _ => .error (.page 3 3))))

/-- Accesses of a level are translated (R70). -/
def State.translated (s : State) (lvl : Nat) : Bool := lvl ≠ 0 && bitAt s.mxroot 27

/-- A local address to a physical one and what its page says of accesses; an untranslated access has no page, and is normal (R70) (DESIGN CHOICE, log 31). -/
def State.xlate (s : State) (lvl : Nat) (need : Need) (l : Nat) : Except XErr (Nat × Option PageAttr) :=
  if s.translated lvl then
    match s.walk lvl need l with
    | .ok (pa, h) => .ok (pa, some h)
    | .error e => .error e
  else .ok (l, none)

/-- `n` bytes at a physical address lie in ranges that permit the access; control windows permit only word slots (R67, R69). -/
def State.permits (s : State) (pa n : Nat) : Option Nat :=
  match s.region pa, s.region (pa + (n - 1)) with
  | .bad, _ => some 1
  | _, .bad => some 1
  | .ctl _, _ => if n = 8 ∧ pa % 8 = 0 then none else some 3
  | .cxl, _ => if (s.cellKey pa).isSome && (s.cellKey (pa + (n - 1))).isSome then none else some 1
  | _, _ => none

/-- A local access of `n` bytes, which one page holds, to its physical address and page, or why not. -/
def State.place (s : State) (lvl : Nat) (need : Need) (a : Pair) (n : Nat) : Except XErr (Nat × Option PageAttr) :=
  match s.xlate lvl need (localOf a) with
  | .error e => .error e
  | .ok (pa, h) =>
    match s.permits pa n with
    | some r => .error (.bus r)
    | none => .ok (pa, h)

/-- The cause and info word that an access error takes (R75, R222). -/
def XErr.cause (e : XErr) (need : Need) : Nat :=
  match e with
  | .page _ _ => if need = .fetch then 0x05 else 0x06
  | .bus _ => 0x03
  | .mem _ _ => 0x0E

/-- What the memory system does on an access error: a detected error is logged (R240). -/
def State.noteErr (s : State) : XErr → State
  | .mem src pa => s.memFail src pa
  | _ => s

/-- DEFERRED 0 and DKIND 3: an access that has no destination register (R222). -/
def noDest : Nat := 6

/-- The info word of an access error; `dest` is DEFERRED, DKIND and DREG at bits [12:5], of a precise report too (DEDUCED, log 12). -/
def XErr.info (e : XErr) (need : Need) (dest : Nat) : Word :=
  match e with
  | .page l r => word (need.code + l * 4 + r * 16)
  | .bus r => word (need.code + r * 4 + dest * 32)
  | .mem src _ => word (need.code + src * 4 + dest * 32)

/-! ## Routing an exception (R212) -/

/-- The level that takes a synchronous cause that arises at a level. -/
def Core.route (k : Core) (cause at_ : Nat) : Nat :=
  if at_ = 0 then 0
  else if cause = 0x0D ∨ cause = 0x11 then 0
  else if bitAt (k.getMreg 0x13) cause then 1 else 0

/-- A synchronous exception of the instruction at the core's PC. -/
def Core.exc (k : Core) (cause : Nat) (info : Word) (fa : Pair) : Exc :=
  { cause := cause, info := info, fa := fa, pc := k.pc, target := k.route cause k.pl }

/-! ## Entry (R216–R221) -/

/-- The word slots of a frame, as bytes. -/
def frameBytes (psw : Word) (pc fa : Pair) (cause : Nat) (info entry : Word) : List Byte :=
  wordBytes psw ++ pairBytes pc ++ pairBytes fa ++ wordBytes (word cause) ++ wordBytes info ++ wordBytes entry

/-- The entry word (R216). -/
def entryWord (lv from_ : Nat) (raised df : Bool) (depth : Nat) : Word :=
  word (lv + from_ * 4 + flag raised 4 + flag df 5 + depth * 64)

/-- Why check_frame fails for a frame at `f` on the stack of a level (R219); the physical addresses of its slots otherwise. -/
def State.checkFrame (s : State) (k : Core) (lv : Nat) (f : Pair) : Except Nat (List Nat) :=
  let l := localOf f
  if fld f 0 3 ≠ 0 then .error 0
  else if l < k.dlo lv ∨ k.dhi lv < l + 64 then .error 1
  else if badTop f || !s.onDevice f then .error 3
  else
    let slots := (List.range 8).map (fun i => s.xlate lv .write ((l + 8 * i) % 2 ^ 44))
    let pas := slots.filterMap (fun e => match e with | .ok (pa, _) => some pa | .error _ => none)
    if pas.length < 8 then .error 2
    else if pas.any (fun pa => match s.region pa with
      | .bad => true
      | .ctl _ => true
      | .cxl => (s.cellKey pa).isNone
      | _ => false) then .error 3
    else .ok pas

/-- The eight slots adjoin, so that a line which they cover is written whole. -/
def adjoin (pas : List Nat) : Bool :=
  match pas with
  | [] => false
  | pa :: _ => pas == (List.range 8).map (fun i => pa + 8 * i)

/-- A frame write meets a detected error in a line that it covers only in part (R219, R240). -/
def State.frameErr (s : State) (pas : List Nat) : Option XErr :=
  match pas with
  | [] => none
  | pa :: _ => if adjoin pas then (s.writeErr pa 64).map (fun src => .mem src pa)
    else pas.findSome? (fun p => (s.writeErr p 8).map (fun src => .mem src p))

/-- Writes slots at their physical addresses, one after the other. -/
def State.putEach (s : State) (pas : List Nat) (l : List Byte) : State :=
  match pas with
  | [] => s
  | pa :: r => (s.memPut pa (l.take 8)).putEach r (l.drop 8)

/-- Writes eight slots at their physical addresses: as one write where they adjoin (R240). -/
def State.putSlots (s : State) (pas : List Nat) (l : List Byte) : State :=
  if adjoin pas then s.memPut (pas.headD 0) l else s.putEach pas l

/-- The PSW of a handler (R217). -/
def handlerPsw (psw : Word) (lv : Nat) : Word :=
  setFld (setFld (setBitAt (setBitAt (setBitAt (setFld psw 0 2 lv) 2 false) 10 false) 4 false) 5 3 0) 8 2 0

/-- MCAUSE after an entry. -/
def mcauseWord (cause lv : Nat) (df raised : Bool) : Word := word (cause + lv * 256 + flag df 10 + flag raised 11)

/-- A third fault: the core stops with its state frozen, and Alidade is told (R220). -/
def State.thirdFaultStop (s : State) (c : Nat) (e : Exc) : State :=
  let k := s.core c
  (((s.setCore c { k with run := .frozen, pTick := false }).logAdd 0x0006 c
    (e.cause + e.target * 256 + (k.getMreg 0x1A).toNat * 2 ^ 10)).machineCheck c 2 0).ephFault 1 c none

/-- Double-fault entry on the emergency stack (R219). -/
def State.doubleFault (s : State) (c : Nat) (e : Exc) (f : Pair) (reason : Nat) : State :=
  let k := s.core c
  let ea := coreWindow c + 0xBFFC0
  let info := word (e.cause + reason * 256 + e.target * 2 ^ 11)
  let depth := min (k.depth 0 + 1) 63
  let from_ := k.pl
  let k := (((k.setMreg 0x1A e.info).setMreg 0x1B (lo36 f)).setMreg 0x1C (hi36 f))
  let k := ((k.setMreg 0x1D (lo36 k.dsp.m)).setMreg 0x1E (hi36 k.dsp.m))
  if s.isRetired c then s.thirdFaultStop c e
  else
    let s1 := s.memPut ea (frameBytes k.psw e.pc e.fa 0x0D info (entryWord 0 from_ e.raised true depth))
    let df := k.getMreg 0x19
    let k := k.setMreg 0x19 (setFld (setBitAt df 0 true) 1 8 (min (fld df 1 8 + 1) 255))
    let k := (k.setDepth 0 depth).setMreg 0x17 (mcauseWord 0x0D 0 true e.raised)
    s1.setCore c { k.dropLatches with
      dsp := k.dsp.set 0 (selfPair ea)
      psw := handlerPsw k.psw 0
      pc := selfPair ((k.getMreg 0x14).toNat * 4096 + 0x0D * 64) }

/-- A cause that reached M, by an entry that gave DEPTH_M, and that the core monitor treats otherwise than by its own code waits for that treatment (R457) (DEDUCED, log 26). -/
def State.noteM (s : State) (c lv from_ : Nat) (e : Exc) (depth : Nat) : State :=
  if lv = 0 ∧ e.cause ≠ 0x11 ∧ e.cause ≠ 0x12 then
    { s with monitor := Tbl.modify {} s.monitor c (fun m => { m with
        due := m.due ++ [{ cause := e.cause, level := from_, info := e.info, fa := e.fa, depth := depth }] }) }
  else s

/-- Takes an exception at an instruction boundary: the one operation that every cause goes through (R217). -/
def State.enter (s : State) (c : Nat) (e : Exc) : State :=
  let lv := e.target
  let old := s.core c
  let k := old.settle
  -- a trap that falls due while an exception is entered waits for that exception's ERET (R205)
  let k := { k with
    run := .running, pld := none, pTraps := old.pTraps
    heldTraps := old.heldTraps ++ (k.pTraps.drop old.pTraps.length).map (fun r => (r, lv, k.depth lv)) }
  let s := s.setCore c k
  if k.dfActive && e.sync then s.thirdFaultStop c e
  else
    let f := k.dsp.get lv - 64#72
    if k.fnest = false ∧ e.sync = true ∧ k.nlimit ≤ k.depth lv then s.doubleFault c e f 4
    else
      match s.checkFrame k lv f with
      | .error r =>
        if r = 1 ∧ localOf f < k.dlo lv ∧ k.fnest = true then
          (s.setCore c { k with run := .exhausted }).machineCheck c 1 0
        else s.doubleFault c e f r
      | .ok pas =>
        match s.frameErr pas with
        | some err => (s.noteErr err).doubleFault c e f 5
        | none =>
          let depth := min (k.depth lv + 1) 63
          let s1 := s.putSlots pas (frameBytes k.psw e.pc e.fa e.cause e.info (entryWord lv k.pl e.raised false depth))
          let mf := k.getMreg 0x11
          let k1 := if e.cause = 0x11 then { k.setMreg 0x11 (setBitAt mf 2 true) with tickDepth := k.depth 0, pTick := false } else k
          let k2 := (k1.setDepth lv depth).setMreg 0x17 (mcauseWord e.cause lv false e.raised)
          (s1.noteM c lv k.pl e depth).setCore c { k2.dropLatches with
            dsp := k2.dsp.set lv f
            psw := handlerPsw k2.psw lv
            pc := selfPair ((k2.getMreg (if lv = 0 then 0x14 else 0x15)).toNat * 4096 + e.cause * 64) }

/-! ## Pending exceptions (R213, R214) -/

/-- An asynchronous exception whose target is level `l` can be taken now. -/
def Core.takes (k : Core) (l : Nat) : Bool := !k.dfActive && (decide (l < k.pl) || (k.pl == l && k.ie))

/-- The highest-ranked pending exception that can be taken at this boundary, with the core without it. -/
def Core.pick (k : Core) : Option (Exc × Core) :=
  let asyn (cause : Nat) (info : Word) (lv : Nat) : Exc :=
    { cause := cause, info := info, fa := 0#72, pc := k.pc, target := lv, sync := false }
  let sigInfo (g : Sig) : Word := word (g.kind + g.index * 8)
  let rank1 := if k.dfActive then none else k.pSigs.find? (fun g => decide (2 ≤ g.kind))
  match rank1 with
  | some g => some (asyn 0x12 (sigInfo g) 0, { k with pSigs := k.pSigs.erase g })
  | none =>
    match k.pReports.find? (fun r => decide (r.level ≤ k.pl)) with
    | some r => some ({ cause := r.cause, info := r.info, fa := r.fa, pc := k.pc, target := k.route r.cause r.level },
        { k with pReports := k.pReports.erase r })
    | none =>
      match (k.pTraps.find? (fun r => r.cause == 0x0B)).or (k.pTraps.find? (fun r => r.cause == 0x10)) with
      | some r => some ({ cause := r.cause, info := r.info, fa := r.fa, pc := k.pc, target := k.route r.cause r.level },
          { k with pTraps := k.pTraps.erase r })
      | none =>
        if k.pTick && !k.dfActive && !k.inTick then
          some (asyn 0x11 (0#36) 0, { k with pTick := false })
        else
          let low (l : Nat) := k.pSigs.find? (fun g => decide (g.kind < 2) && g.level == l && k.takes l)
          match (low 0).or (low 1) with
          | some g => some (asyn 0x12 (sigInfo g) g.level, { k with pSigs := k.pSigs.erase g })
          | none =>
            let evs := k.pEvents.filter (fun _ => k.takes 1 && (k.pl == 1 || k.pl == 2))
            match evs with
            | [] => none
            | e :: r =>
              let b := r.foldl (fun a b => if b.1 < a.1 then b else a) e
              some (asyn b.1 b.2 1, { k with pEvents := k.pEvents.erase b })

/-- Takes the highest-ranked pending exception, if one can be taken; the tick's info word is the counter (R211). -/
def State.takePending (s : State) (c : Nat) : Option State :=
  match (s.core c).pick with
  | none => none
  | some (e, k) =>
    let e := if e.cause = 0x11 then { e with info := word s.now } else e
    some ((s.setCore c k).enter c e)

end Sys2Proof.Machine
end

