-- ==== Sys2Proof/Machine/Operands.lean ====
section
/-!
DEFINITION. Operand forms and encodings of instructions (R84–R90, R144, R169): prefixes, immediates, lengths, what makes an encoding illegal and at which byte; and how an instruction issues, completes or faults.
-/
namespace Sys2Proof.Machine

/-! ## Immediates (R89, R90) -/

/-- A word immediate: 16 bits sign-extended, or 36 bits as they stand. -/
def immWord : Imm → Word
  | .short v => v.signExtend 36
  | .long v => v
  | .pair v => v.setWidth 36

/-- A pair immediate or a displacement: sign-extended from 16 or 36 bits, or all 72 bits. -/
def immAddr : Imm → Pair
  | .short v => v.signExtend 72
  | .long v => v.signExtend 72
  | .pair v => v

/-- Bytes of an immediate. -/
def immSize : Imm → Nat
  | .short _ => 2
  | .long _ => 5
  | .pair _ => 9

/-- An immediate needs a LIMM prefix. -/
def immLimm : Imm → Bool
  | .short _ => false
  | _ => true

/-! ## Shapes of instructions -/

/-- What an opcode permits and how many bytes follow it. -/
structure Shape where
  /-- An escape byte precedes the opcode. -/
  esc : Bool := false
  /-- FW codes permitted (R95, R145, R168). -/
  fws : List Nat := []
  /-- FW selects a lane format: without the prefix the format is F36, code 0 (R119, R145). -/
  lane : Bool := false
  /-- MASK permitted (R146, R168). -/
  maskOk : Bool := false
  /-- PSO permitted (R168, R191). -/
  psoOk : Bool := false
  /-- 0 no LIMM, 1 LIMM 0xDA, 2 also 0xDB (R86). -/
  limm : Nat := 0
  /-- Operand and control bytes, the immediate excepted. -/
  ops : Nat := 0
  /-- The imm16 or disp16. -/
  imm : Option Imm := none
  /-- Index after the opcode of the operand or control byte that makes the encoding illegal (R87). -/
  bad : Option Nat := none
  /-- The earlier array work that the instruction waits for before it issues (R136, R182, R195). -/
  before : Option (Core → Core) := none

/-- Bytes of the prefixes, in the order FW, MASK, PSO, LIMM, REUSE. -/
def Shape.prefixLen (h : Shape) (x : Issue) : Nat :=
  x.fw.isSome.toNat + x.mask.isSome.toNat + 3 * x.pso.isSome.toNat + (h.imm.any immLimm).toNat + x.reuse.isSome.toNat

/-- Number of prefixes. -/
def Shape.prefixCount (h : Shape) (x : Issue) : Nat :=
  x.fw.isSome.toNat + x.mask.isSome.toNat + x.pso.isSome.toNat + (h.imm.any immLimm).toNat + x.reuse.isSome.toNat

/-- Length of the instruction in bytes (R84). -/
def Shape.len (h : Shape) (x : Issue) : Nat :=
  h.prefixLen x + (if h.esc then 2 else 1) + h.ops + (match h.imm with | some i => immSize i | none => 0)

/-- A prefix that the opcode does not permit. -/
def Shape.prefixBad (h : Shape) (x : Issue) : Bool :=
  (match x.fw with | some f => !h.fws.contains f.toNat | none => h.lane && !h.fws.contains 0) ||
  (x.mask.isSome && !h.maskOk) || (x.pso.isSome && !h.psoOk) ||
  (match h.imm with
   | some (.long _) => h.limm == 0
   | some (.pair _) => h.limm != 2
   | _ => false)

/-- The offset of the byte at which decoding fails, if it does: of the bytes that the core meets, or of the command's own encoding (R86, R87). -/
def Shape.illegal (h : Shape) (x : Issue) : Option Nat :=
  match x.bytes.bind illegalBytes with
  | some o => some o
  | none =>
  if h.prefixCount x = 5 then some (h.prefixLen x - 1)
  else if h.prefixBad x then some (h.prefixLen x + (if h.esc then 1 else 0))
  else h.bad.map (fun i => h.prefixLen x + (if h.esc then 2 else 1) + i)

/-- An encoding is legal. -/
def Shape.legal (h : Shape) (x : Issue) : Bool := (h.illegal x).isNone

/-- A byte index is illegal unless a condition holds. -/
def need (ok : Bool) (i : Nat) : Option Nat := if ok then none else some i

/-- Scalar format with `n` operand bytes and no FW. -/
def shOps (n : Nat) : Shape := { ops := n }
/-- Scalar format whose FW code 1 selects the 18-bit operation (R95). -/
def shHalf (n : Nat) : Shape := { ops := n, fws := [1] }
/-- Format with an imm16 or disp16 after `n` operand bytes. -/
def shImm (n : Nat) (i : Imm) : Shape := { ops := n, imm := some i, limm := 1 }
/-- Format RB whose imm8 lies in a range. -/
def shRB (n : Byte) (lo hi : Nat) : Shape := { ops := 3, bad := need (decide (lo ≤ n.toNat) && decide (n.toNat ≤ hi)) 2 }
/-- Format RBB under R452. -/
def shRBB (pos len : Byte) : Shape :=
  { ops := 4, bad := if 35 < pos.toNat then some 2
      else if len.toNat = 0 ∨ 36 < pos.toNat + len.toNat then some 3 else none }
/-- System map format. -/
def shSys (n : Nat) : Shape := { esc := true, ops := n }

/-- The outcome of a command. -/
abbrev Out := Host.Outcome State Fault Refusal

/-! ## How an instruction ends -/

/-- The result of an instruction's body. -/
inductive Res where
  /-- It completes; the PC advances past it. -/
  | next (s : State)
  /-- It completes; the PC takes an address. -/
  | jump (s : State) (pc : Pair)
  /-- It takes a precise exception: cause, info word, fault address. -/
  | fault (cause : Nat) (info : Word) (fa : Pair)
  /-- It takes a precise exception for an access that failed; the memory system has noted the failure. -/
  | access (e : XErr) (need : Need) (dest : Nat) (fa : Pair)
  /-- It stays at the boundary until something else completes it. -/
  | stay (s : State)

/-- A core that runs and is not halted. -/
def State.live (s : State) (c : Nat) : Bool :=
  s.hasCore c && !s.isRetired c && !(s.core c).eyeHalt &&
  (match (s.core c).run with | .running => true | .waiting => true | .idle => true | _ => false)

/-- An access of the core is waiting for another device. -/
def State.remoteWait (s : State) (c : Nat) : Bool := s.remote.any (fun r => r.core == c)

/-- The core is after FDONE at its task's level (R104). -/
def Core.isEnded (k : Core) : Bool := k.ended && k.pl == k.taskLevel

/-- An exception, or an event enabled at the current level, is pending: it ends WAITE even where it cannot be taken yet (R100, R213). -/
def Core.wakes (k : Core) : Bool :=
  let on (l : Nat) : Bool := decide (l < k.pl) || (k.pl == l && k.ie)
  k.pTick || !k.pReports.isEmpty || !k.pTraps.isEmpty || k.pSigs.any (fun g => decide (2 ≤ g.kind) || on g.level) ||
  (!k.pEvents.isEmpty && on 1)

/-- The core issues an instruction now, exceptions aside. -/
def State.issues (s : State) (c : Nat) : Bool :=
  let k := s.core c
  (k.run == .running || (k.run == .waiting && k.wakes)) && !k.isEnded

/-- Why core `c` cannot fetch the byte at an address: cause and info word; a line in its L1 instruction cache is read from there (R66, R75, R228). -/
def State.fetchErr (s : State) (c lvl : Nat) (a : Pair) : Option XErr :=
  if badTop a then some (.bus 0)
  else if !s.onDevice a then some (.bus 2)
  else
    match s.xlate lvl .fetch (localOf a) with
    | .error e => some e
    | .ok (pa, _) =>
      match s.region pa with
      | .gddr | .ls _ _ =>
        if (Tbl.get [] s.l1i c).contains (pa / 64) then none
        else match s.readErr pa 1 with
        | some _ => some (.mem 6 pa)
        | none => none
      | .bad => some (.bus 1)
      | .ctl o => some (.bus (if ctlAbsent s.variant o then 1 else 2))
      | .cxl => some (.bus 2)

/-- The first of `n` bytes from an address that cannot be fetched: its address, cause and info word (R87). -/
def State.fetchBad (s : State) (c lvl : Nat) (a : Pair) : Nat → Option (Pair × XErr)
  | 0 => none
  | n + 1 =>
    match s.fetchErr c lvl a with
    | some e => some (a, e)
    | none => s.fetchBad c lvl (a + 1#72) n

/-- Pends the single-step breakpoint of an instruction that retired (R215). -/
def Core.stepTrap (k : Core) (k0 : Core) : Core :=
  if k0.sstep && decide (k0.route 0x10 k0.pl < k0.pl) then
    { k with pTraps := k.pTraps ++ [{ cause := 0x10, info := 1#36, fa := k0.pc, level := k0.pl }] }
  else k

/-- The boundary after an instruction that retired: its own traps are taken. -/
def State.retire (s : State) (c : Nat) (k0 : Core) (pc : Pair) : State :=
  let k := (s.core c).stepTrap k0
  let s1 := s.setCore c { k with pc := pc }
  if k.pTraps = k0.pTraps then s1
  else (s1.takePending c).getD s1

/-- How an instruction of core `c` ends: `k` is the core as it began, `next` the address after it. -/
def State.finish (s : State) (c : Nat) (k : Core) (next : Pair) : Res → State
  | .next t => t.retire c k next
  | .jump t pc => t.retire c k pc
  | .fault cause info fa => s.enter c (k.exc cause info fa)
  | .access e need dest fa => (s.noteErr e).enter c (k.exc (e.cause need) (e.info need dest) fa)
  | .stay t => t

/-- An instruction whose wait is over: a trap of the work it waited for is taken instead of it, at this instruction as the first not issued (R205); otherwise it goes on. -/
def State.waited (s : State) (c : Nat) (old : List Report) (go : State → State) : State :=
  if (s.core c).pTraps = old ∨ (s.core c).eyeHalt = true then go s else (s.takePending c).getD (go s)

/-- A REUSE byte 0xDC invalidates both latches, whatever the instruction (R179). -/
def State.reuseDrop (s : State) (x : Issue) : State := if x.reuse = some 0#2 then s.modCore x.core Core.dropLatches else s

/-- What an instruction does, with its REUSE byte 0xDC; a fault changes no latch. -/
def Res.reuseDrop (x : Issue) : Res → Res
  | .next t => .next (t.reuseDrop x)
  | .jump t pc => .jump (t.reuseDrop x) pc
  | .stay t => .stay (t.reuseDrop x)
  | r => r

/-- The state in which an instruction's own work begins: the earlier work it waits for is done. -/
def State.begin (s : State) (x : Issue) (h : Shape) : State :=
  match h.before with
  | none => s
  | some f => s.modCore x.core f

/-- The core leaves the wait of WAITE, if it is in one. -/
def State.awake (s : State) (c : Nat) : State := if (s.core c).run = .running then s else s.modCore c (fun k => { k with run := .running })

/-- Issues one instruction at the core's PC: bytes that cannot be fetched and illegal encodings are faults; otherwise its body runs (R87). -/
def State.issueAt (s : State) (x : Issue) (h : Shape) (body : State → Res) : State :=
  let c := x.core
  let k := s.core c
  let ill := h.illegal x
  let want := match ill with | some o => o + 1 | none => h.len x
  match s.fetchBad c k.pl k.pc want with
  | some (a, e) => (s.noteErr e).enter c (k.exc (e.cause .fetch) (e.info .fetch noDest) a)
  | none =>
    match ill with
    | some o => s.enter c (k.exc 0x01 (word o) 0#72)
    | none => (s.begin x h).waited c k.pTraps (fun t => t.finish c (t.core c) (k.pc + BitVec.ofNat 72 (h.len x)) ((body t).reuseDrop x))

/-- A halted core that STEP lets execute one instruction. -/
def State.stepping (s : State) (c : Nat) : Bool :=
  s.hasCore c && !s.isRetired c && (s.core c).eyeHalt && (s.core c).eyeStep

/-- The boundary after the instruction of STEP: pending exceptions are taken (R419). -/
def State.stepEnd (s : State) (c : Nat) : State :=
  let t := s.modCore c (fun k => { k with eyeStep := false })
  (t.takePending c).getD t

/-- Issues one instruction: a pending exception is taken instead of it, except under STEP (R214, R419) (DESIGN CHOICE, log 4). -/
def State.issue (s : State) (x : Issue) (h : Shape) (body : State → Res) : State :=
  let c := x.core
  if (s.core c).pld.isSome ∨ s.remoteWait c = true then s
  else if s.stepping c = true ∧ s.issues c = true then ((s.awake c).issueAt x h body).stepEnd c
  else if s.live c = false then s
  else
    match s.takePending c with
    | some t => t
    | none => if s.issues c = false then s else (s.awake c).issueAt x h body

/-- Issues an instruction that changes only its core. -/
def State.issueCore (s : State) (x : Issue) (h : Shape) (f : Core → Core) : State :=
  s.issue x h (fun s => .next (s.modCore x.core f))

/-- The address after an instruction. -/
def Core.after (k : Core) (h : Shape) (x : Issue) : Pair := k.pc + BitVec.ofNat 72 (h.len x)

end Sys2Proof.Machine
end

