-- ==== Sys2Proof/Machine/Arb.lean ====
section
/-!
DEFINITION. Arbitration of shared resources (R254–R267): one decision algorithm for every arbiter, locked sequences, starvation events.
-/
namespace Sys2Proof.Machine

/-- Window offset of a register of arbiter `i`. -/
def arbOff (i r : Nat) : Nat := 0x20000 + i * 0x80 + r

/-- What arbiter `i` holds besides its registers. -/
def State.arbX (s : State) (i : Nat) : ArbX := Tbl.get {} s.arb i

/-- Writes what arbiter `i` holds. -/
def State.setArbX (s : State) (i : Nat) (x : ArbX) : State := { s with arb := Tbl.set {} s.arb i x }

/-- The class that ARB_CLASS assigns to an input. -/
def State.arbInputClass (s : State) (i j : Nat) : Nat := s.ctlFld (arbOff i (0x40 + 8 * (j / 16))) (2 * (j % 16)) 2

/-- The class that ARB_AGCLASS assigns to an agent. -/
def State.agentClass (s : State) (a : Nat) : Nat := s.ctlFld (0x2F000 + 8 * (a / 18)) (2 * (a % 18)) 2

/-- The class of a request (R257). -/
def State.arbClass (s : State) (i : Nat) (r : ArbReq) : Nat :=
  if 256 ≤ i ∧ i < 448 ∧ r.input = 0 then 3
  else if s.ctlFld (arbOff i 0) 4 1 = 1 then
    match r.agent with
    | some a => s.agentClass a
    | none => s.arbInputClass i r.input
  else s.arbInputClass i r.input

/-- e(i) of R258. -/
def State.arbRank (s : State) (i : Nat) (r : ArbReq) : Nat :=
  8 * s.arbClass i r + min (Tbl.get 0 (s.arbX i).lost r.input) (s.ctlFld (arbOff i 0) 0 4)

/-- Among requests, the one of the lowest input at or above `p`; else the lowest input. -/
def firstFrom (p : Nat) (l : List ArbReq) : Option ArbReq :=
  let low (m : List ArbReq) : Option ArbReq := m.foldl (fun b r =>
    match b with
    | none => some r
    | some q => if r.input < q.input then some r else some q) none
  (low (l.filter (fun r => decide (p ≤ r.input)))).or (low l)

/-- The request that R258 grants among candidates. -/
def State.arbWinner (s : State) (i : Nat) (cands : List ArbReq) : Option ArbReq :=
  let best := cands.foldl (fun b r => max b (s.arbRank i r)) 0
  let tie := cands.filter (fun r => s.arbRank i r == best)
  let top := tie.foldl (fun b r => max b (s.arbClass i r)) 0
  firstFrom (Tbl.get 0 (s.arbX i).rr top) (tie.filter (fun r => s.arbClass i r == top))

/-- The effects of an arbiter event besides its ARB_STAT bit: counter, notice to Alidade, semaphore (R264). -/
def State.arbEvent (s : State) (i : Nat) (starve lockLong : Bool) (input : Nat) : State :=
  let s1 := if starve then s.ctlCount (arbOff i 0x28) 0 12 else s
  let s2 := if lockLong then s1.ctlCount (arbOff i 0x28) 12 12 else s1
  let s3 := s2.logAdd 0x000C i (flag starve 0 + flag lockLong 1 + input * 4)
  let e := s3.ctlGet (arbOff i 0x10)
  if bitAt e 12 then s3.semAdd (fld e 0 12) 1#36 else s3

/-- ARB_STAT keeps LOCKED, LOCK_IN and MAXLOST as they are now. -/
def State.arbStat (s : State) (i : Nat) : State :=
  let x := s.arbX i
  let o := arbOff i 8
  let s1 := s.ctlPut o 17 12 (x.lost.foldl (fun m e => max m e.2) 0)
  match x.lock with
  | some (inp, _) => (s1.ctlPut o 2 1 1).ctlPut o 3 7 inp
  | none => s1.ctlPut o 2 1 0

/-- A candidate that lost this round: its LOST rises, and its latch is set when it reaches the limit. -/
def ArbX.lose (x : ArbX) (limit input : Nat) : ArbX :=
  let n := min (Tbl.get 0 x.lost input + 1) 4095
  { x with
    lost := Tbl.set 0 x.lost input n
    starved := if limit ≤ n then Tbl.set false x.starved input true else x.starved }

/-- The arbiter after a grant. -/
def ArbX.grant (x : ArbX) (w : ArbReq) (cls : Nat) : ArbX :=
  { x with
    lost := Tbl.set 0 x.lost w.input 0
    starved := Tbl.set false x.starved w.input false
    rr := Tbl.set 0 x.rr cls (w.input + 1)
    heads := Tbl.set 0 x.heads w.input 0
    lock := if w.unlock then none else if w.lock then some (w.input, 0) else x.lock
    owner := if w.unlock then none else if w.lock then w.agent else x.owner
    longDone := if w.lock then false else x.longDone }

/-- The inputs among losers that reach the limit with their latch clear, lowest first. -/
def ArbX.crossing (x : ArbX) (limit : Nat) (losers : List ArbReq) : Option Nat :=
  (losers.filter (fun r => decide (limit ≤ min (Tbl.get 0 x.lost r.input + 1) 4095) && !Tbl.get false x.starved r.input)).foldl
    (fun b r => match b with | none => some r.input | some m => some (min m r.input)) none

/-- One cycle of arbiter `i` in which these admissible head requests are pending and its resource can accept a grant (R255–R264): requests for a freed bank, or control packets at a router output, contest among themselves first (R256, R259, R299). -/
def State.arbDecide (s : State) (i : Nat) (heads : List ArbReq) : Option ArbReq × State :=
  let x0 := s.arbX i
  let x := { x0 with
    heads := heads.foldl (fun h r => Tbl.set 0 h r.input (s.arbClass i r + 1)) []
    lock := x0.lock.map (fun l => (l.1, l.2 + 1)) }
  let s := s.setArbX i x
  let free := match x.lock with
    | some (o, _) => heads.filter (fun r => r.input == o)
    | none => heads
  let bank := free.filter (fun r => r.freed || r.control)
  let cands := if bank.isEmpty then free else bank
  match s.arbWinner i cands with
  | none => (none, s.arbStat i)
  | some w =>
    let limit := s.ctlFld (arbOff i 0) 5 12
    let losers := cands.filter (fun r => r.input != w.input)
    let x2 := losers.foldl (fun y r => y.lose limit r.input) (x.grant w (s.arbClass i w))
    let s1 := s.setArbX i x2
    let s2 := match x.crossing limit losers with
      | none => s1
      | some inp =>
        let o := arbOff i 8
        let t := if s1.ctlFld o 0 1 = 0 then s1.ctlPut o 10 7 inp else s1
        (t.ctlPut o 0 1 1).arbEvent i true false inp
    (some w, s2.arbStat i)

/-- The owner of the lock that arbiter `i` holds is reset: the lock ends and LOST of its input becomes 0 (R262). -/
def State.arbUnlock (s : State) (i : Nat) : State :=
  let x := s.arbX i
  match x.lock with
  | none => s
  | some (input, _) => (s.setArbX i { x with lost := Tbl.set 0 x.lost input 0, lock := none, owner := none }).arbStat i

/-- An agent is reset: the locks that it owns end, at whichever arbiter (R262). -/
def State.arbAgentReset (s : State) (agent : Nat) : State :=
  ((s.arb.filter (fun e => e.2.lock.isSome && e.2.owner == some agent)).map Prod.fst).foldl (fun t i => t.arbUnlock i) s

/-- A link reset ends the locks that router input `p` holds (R262). -/
def State.arbLinkReset (s : State) (p : Nat) : State :=
  ((s.arb.filter (fun e => decide (454 ≤ e.1) && e.2.lock.any (fun l => l.1 == p))).map Prod.fst).foldl (fun t i => t.arbUnlock i) s

/-- LOST of an input and a lock that the input holds are cleared. -/
def State.arbInputReset (s : State) (i input : Nat) : State :=
  let x := s.arbX i
  let held := x.lock.any (fun l => l.1 == input)
  (s.setArbX i { x with
    lost := Tbl.set 0 x.lost input 0
    lock := if held then none else x.lock
    owner := if held then none else x.owner }).arbStat i

/-- A core reset ends the core's locks and clears LOST of the inputs that carry only that core's requests (R262, R267). -/
def State.arbCoreReset (s : State) (c : Nat) : State :=
  let s1 := (List.range 48).foldl (fun t b => t.arbInputReset (64 + 48 * (c / 48) + b) (c % 48)) (s.arbAgentReset c)
  s1.arbInputReset (256 + c) 0

/-- A head request that may stand in this arbiter: its input is present, and a port never requests its own output. -/
def State.arbHeadOk (s : State) (i : Nat) (r : ArbReq) : Bool :=
  arbInputPresent s.variant i r.input && (decide (i < 454) || decide (463 < i) || decide (r.input ≠ i - 454))

/-- Locked sequences run at tensor cache banks and at router outputs only (R254). -/
def lockable (i : Nat) : Bool := (decide (64 ≤ i) && decide (i < 256)) || decide (454 ≤ i)

/-- A head request as an arbiter takes it: LOCK and UNLOCK only where locked sequences run, the control class only at a router output, a freed bank only at a memory channel. -/
def headAt (i : Nat) (r : ArbReq) : ArbReq :=
  { r with
    lock := r.lock && lockable i, unlock := r.unlock && lockable i
    control := r.control && decide (454 ≤ i), freed := r.freed && decide (i < 64) }

/-- LOCKLONG: the lock has reached LOCK_LIMIT; raised once per lock (R263). -/
def execLocklong (i : Nat) (s : State) : Out :=
  let x := s.arbX i
  match x.lock with
  | none => .next s
  | some (inp, n) =>
    if arbPresent s.variant i = false ∨ x.longDone = true ∨ n < s.ctlFld (arbOff i 0) 17 16 then .next s
    else
      let s1 := s.setArbX i { x with longDone := true }
      .next ((s1.ctlPut (arbOff i 8) 1 1 1).arbEvent i false true inp)

end Sys2Proof.Machine
end

