-- ==== Sys2Proof/Machine/Flags.lean ====
section
/-!
DEFINITION. Scalar results with their condition flags (R91–R97): each operation as one function to a word and the flags it sets.
-/
namespace Sys2Proof.Machine

/-- A scalar result: the word written and the flags set. -/
structure Alu where
  val : Word
  cond : Cond := {}
  /-- A clamp sets AFLAGS.SAT. -/
  sat : Bool := false
  deriving DecidableEq, Repr

/-- Flags Z and N of a 36-bit result (R91). -/
def condZN (r : Word) : Cond := { z := some (r = 0#36), n := some (bitAt r 35) }

/-- Addition with a carry in: Z, N, carry out of the top bit, signed overflow. -/
def addW {n : Nat} (a b : BitVec n) (cin : Bool) : BitVec n × Cond :=
  let r := a + b + BitVec.ofNat n cin.toNat
  (r, { z := some (r = 0#n), n := some r.msb
        c := some (decide (2 ^ n ≤ a.toNat + b.toNat + cin.toNat))
        v := some (a.msb == b.msb && r.msb != a.msb) })

/-- Subtraction a − b − borrow: C is 1 when no borrow occurs. -/
def subW {n : Nat} (a b : BitVec n) (borrow : Bool) : BitVec n × Cond :=
  let r := a - b - BitVec.ofNat n borrow.toNat
  (r, { z := some (r = 0#n), n := some r.msb
        c := some (decide (b.toNat + borrow.toNat ≤ a.toNat))
        v := some (a.msb != b.msb && r.msb != a.msb) })

/-- FW code 1 selects the 18-bit operation (R95). -/
def isHalf (x : Issue) : Bool := x.fw == some 1#3

/-- An operation on 36-bit words, or on bits [17:0] with the result sign-extended (R95). -/
def halfOr (x : Issue) (a b : Word) (f : {n : Nat} → BitVec n → BitVec n → BitVec n × Cond) : Alu :=
  if isHalf x then
    let r := f (a.setWidth 18) (b.setWidth 18)
    { val := r.1.signExtend 36, cond := r.2 }
  else
    let r := f a b
    { val := r.1, cond := r.2 }

/-- ADD. -/
def aluAdd (x : Issue) (a b : Word) : Alu := halfOr x a b (fun p q => addW p q false)
/-- SUB. -/
def aluSub (x : Issue) (a b : Word) : Alu := halfOr x a b (fun p q => subW p q false)

/-- Clamps an exact integer into n signed or unsigned bits; V and SAT tell a clamp (R96). -/
def clampTo (signed : Bool) (n : Nat) (i : Int) : Int :=
  if signed then clampI (-(2 ^ (n - 1))) (2 ^ (n - 1) - 1) i else clampI 0 (2 ^ n - 1) i

/-- A clamped result as a word with its flags. -/
def aluClamp (signed : Bool) (n : Nat) (i : Int) : Alu :=
  let c := clampTo signed n i
  let w := BitVec.ofInt 36 c
  { val := w, cond := { condZN w with v := some (c ≠ i) }, sat := c ≠ i }

/-- The signed value of an operand at the width that FW selects. -/
def opInt (x : Issue) (a : Word) : Int := if isHalf x then (a.setWidth 18).toInt else a.toInt

/-- ADDS and SUBS at the width that FW selects (R95, R96). -/
def aluAdds (x : Issue) (a b : Word) : Alu := aluClamp true (if isHalf x then 18 else 36) (opInt x a + opInt x b)
/-- SUBS. -/
def aluSubs (x : Issue) (a b : Word) : Alu := aluClamp true (if isHalf x then 18 else 36) (opInt x a - opInt x b)
/-- ADDUS. -/
def aluAddus (a b : Word) : Alu := aluClamp false 36 (a.toNat + b.toNat)
/-- SUBUS. -/
def aluSubus (a b : Word) : Alu := aluClamp false 36 ((a.toNat : Int) - b.toNat)
/-- SATN. -/
def aluSatn (a : Word) (n : Nat) : Alu := aluClamp true n a.toInt
/-- SATUN. -/
def aluSatun (a : Word) (n : Nat) : Alu := aluClamp false n a.toInt
/-- ABS. -/
def aluAbs (a : Word) : Alu := aluClamp true 36 a.toInt.natAbs

/-- Rounding shift right of an exact value: (v + 2^(n−1)) / 2^n, floor; n = 0 keeps it (R96). -/
def roundShift (v : Int) (n : Nat) : Int := if n = 0 then v else (v + 2 ^ (n - 1)) / 2 ^ n

/-- SARR. -/
def aluSarr (x : Issue) (a : Word) (n : Nat) : Alu :=
  let w := BitVec.ofInt 36 (roundShift (opInt x a) n)
  { val := w, cond := condZN w }

/-- Minimum or maximum with Z and N. -/
def aluPick (a b : Word) (first : Bool) : Alu :=
  let w := if first then a else b
  { val := w, cond := condZN w }

/-- MIN and MAX at the width that FW selects. -/
def aluMin (x : Issue) (a b : Word) : Alu :=
  let s (w : Word) : Word := if isHalf x then (w.setWidth 18).signExtend 36 else w
  aluPick (s a) (s b) (decide (opInt x a ≤ opInt x b))
/-- MAX. -/
def aluMax (x : Issue) (a b : Word) : Alu :=
  let s (w : Word) : Word := if isHalf x then (w.setWidth 18).signExtend 36 else w
  aluPick (s a) (s b) (decide (opInt x b ≤ opInt x a))
/-- MINU. -/
def aluMinu (a b : Word) : Alu := aluPick a b (decide (a.toNat ≤ b.toNat))
/-- MAXU. -/
def aluMaxu (a b : Word) : Alu := aluPick a b (decide (b.toNat ≤ a.toNat))

/-- A logical result with Z and N. -/
def aluLogic (r : Word) : Alu := { val := r, cond := condZN r }

/-- A result that sets Z only. -/
def aluZ (r : Word) : Alu := { val := r, cond := { z := some (r = 0#36) } }

/-- A result that sets no flag. -/
def aluMov (r : Word) : Alu := { val := r }

/-- A shift result: C is written only for a non-zero amount (R94). -/
def aluShift (r : Word) (k : Nat) (c : Bool) : Alu :=
  { val := r, cond := { condZN r with c := if k = 0 then none else some c } }

/-- SHL by k, 0–63. -/
def aluShl (a : Word) (k : Nat) : Alu := aluShift (a <<< k) k (if k ≤ 36 then bitAt a (36 - k) else false)
/-- SHR by k, 0–63. -/
def aluShr (a : Word) (k : Nat) : Alu := aluShift (a >>> k) k (if k ≤ 36 then bitAt a (k - 1) else false)
/-- SAR by k, 0–63. -/
def aluSar (a : Word) (k : Nat) : Alu := aluShift (a.sshiftRight k) k (if k ≤ 36 then bitAt a (k - 1) else bitAt a 35)
/-- ROL by k mod 36. -/
def aluRol (a : Word) (k : Nat) : Alu :=
  let r := a.rotateLeft (k % 36)
  aluShift r k (bitAt r 0)
/-- ROR by k mod 36. -/
def aluRor (a : Word) (k : Nat) : Alu :=
  let r := a.rotateRight (k % 36)
  aluShift r k (bitAt r 35)

/-- The shift amount of a register operand, rs2[5:0]. -/
def shAmt (b : Word) : Nat := fld b 0 6

/-- EXT and EXTU (R93, R452). -/
def extract (signed : Bool) (a : Word) (pos len : Nat) : Alu :=
  let v := fld a pos len
  aluLogic (if signed && a.getLsbD (pos + len - 1) then BitVec.ofInt 36 ((v : Int) - 2 ^ len) else word v)

/-- The condition codes of R92. -/
def condHolds (k : Core) : Nat → Bool
  | 0 => k.z
  | 1 => !k.z
  | 2 => k.n != k.vf
  | 3 => k.n == k.vf
  | 4 => !k.cf
  | 5 => k.cf
  | 6 => !k.z && k.n == k.vf
  | 7 => k.z || k.n != k.vf
  | 8 => k.cf && !k.z
  | 9 => !k.cf || k.z
  | 10 => k.n
  | 11 => !k.n
  | 12 => k.vf
  | 13 => !k.vf
  | _ => true

/-- A core after a scalar result: rd, flags, and AFLAGS.SAT of a clamp (R96). -/
def Core.putAlu (k : Core) (d : Reg) (r : Alu) : Core :=
  let k1 := { k.setW d r.val with psw := r.cond.apply k.psw }
  if r.sat then k1.noteInOrder 0 [{ flags := fSAT }] else k1

/-- A core after a compare: flags only. -/
def Core.putCond (k : Core) (c : Cond) : Core := { k with psw := c.apply k.psw }

end Sys2Proof.Machine
end

