-- ==== Sys2Proof/Machine/VectorCore.lean ====
section
/-!
DEFINITION. Lanes of the vector engine (R144–R146): lane formats, masks, masked writes, element-wise operations with their flags, traps and stochastic draws, and the internal results of the transcendental functions (R157).
-/
namespace Sys2Proof.Machine

/-! ## Shapes (R144–R147) -/

/-- Lane format set Fl. -/
def setFl : List Nat := [0, 1]
/-- Lane format set Sg. -/
def setSg : List Nat := [2, 3]
/-- Lane format set In. -/
def setIn : List Nat := [2, 3, 4, 5]
/-- Lane format set Wd. -/
def setWd : List Nat := [0, 2, 4]
/-- Lane format set All; also the codes that Bits accepts. -/
def setAll : List Nat := [0, 1, 2, 3, 4, 5]

/-- A vector-map instruction with a lane format, MASK permitted, and `n` operand and control bytes. -/
def shV (fws : List Nat) (n : Nat) : Shape := { esc := true, fws := fws, lane := true, maskOk := true, ops := n }
/-- The same without MASK. -/
def shVN (fws : List Nat) (n : Nat) : Shape := { shV fws n with maskOk := false }
/-- A vector-map instruction without FW and MASK. -/
def shVM (n : Nat) : Shape := { esc := true, ops := n }

/-- The lane format of an instruction (R119). -/
def laneFmt (x : Issue) : NumFmt :=
  match x.fw.map BitVec.toNat with
  | some 1 => .f18 | some 2 => .int36 | some 3 => .int18 | some 4 => .uint36 | some 5 => .uint18
  | _ => .f36

/-- An imm8 within lo … width − 1, at index `i` of the operand bytes (R149). -/
def immBad (x : Issue) (n : Byte) (lo i : Nat) : Option Nat :=
  need (decide (lo ≤ n.toNat) && decide (n.toNat < (laneFmt x).width)) i

/-! ## Masks (R146) -/

/-- The active lanes. -/
def Core.act (k : Core) (x : Issue) : BitVec 64 := match x.mask with | some (_, m) => k.getM m | none => BitVec.allOnes 64
/-- Inactive lanes are written with zero. -/
def zeroing (x : Issue) : Bool := match x.mask with | some (z, _) => z | none => false

/-- Lane `i` of a register. -/
def lane (l : List Word) (i : Nat) : Word := l.getD i 0#36

/-- The 64 lanes of a register. -/
def fullRow (l : List Word) : List Word := (List.range 64).map (lane l)

/-- The lanes of a register under a mask: new values in active lanes, the old or zero in the others. -/
def maskLanes (act : BitVec 64) (zero : Bool) (old new : List Word) : List Word :=
  (List.range 64).map (fun i => if act.getLsbD i then lane new i else if zero then 0#36 else lane old i)

/-- Writes vd under the instruction's mask. -/
def Core.putV (k : Core) (x : Issue) (d : Reg) (l : List Word) : Core :=
  k.setV d (maskLanes (k.act x) (zeroing x) (k.getV d) l)

/-- A lane-wise operation without flags. -/
def Core.vLanes (k : Core) (x : Issue) (d : Reg) (f : Nat → Word) : Core := k.putV x d ((List.range 64).map f)

/-! ## Element-wise operations -/

/-- Flags that ATRAP covers: INV, DZ, OVF (R137). -/
def trapFlags : Flg := fINV ||| fDZ ||| fOVF

/-- The arithmetic trap after an instruction that raised flags (R137). -/
def Core.atrapOf (k : Core) (f : Flg) : Core :=
  if k.atrap && (f &&& trapFlags != 0#9) then
    { k with pTraps := k.pTraps ++ [{ cause := 0x0B, info := f.setWidth 36, fa := 0#72, level := k.pl }] }
  else k

/-- FUNIT of an instruction of core `c`: 2 for one marked "1"; for one marked "0/1", 1 or 2 by the pipeline that took it in its issue clock, which is free (R134, R141, log 53). -/
def Core.pipeUnit (k : Core) (c pipe : Nat) : Nat := if pipe = 2 then 2 else 1 + Config.freePipe c k.pipeDraws % 2

/-- Flags, first-position record, stochastic count and trap of a finished instruction of core `c`; `pipe` is 2 for one marked "1" in the Pipe column, 1 for "0/1". -/
def Core.vDone (k : Core) (c pipe : Nat) (l : List ElemFlag) (stoch : Bool) : Core :=
  let k1 := k.noteInOrder (k.pipeUnit c pipe) l
  (({ k1 with pipeDraws := k1.pipeDraws + 1 } : Core).countStoch stoch).atrapOf (allFlags l)

/-- One delivered element at its lane and place in the lane. -/
structure Elem where
  lane : Nat
  sub : Nat
  res : FRes

/-- The flags of delivered elements at their positions. -/
def elemFlags (l : List Elem) : List ElemFlag := l.map (fun e => { flags := e.res.flags, slot := e.lane, sub := e.sub })

/-- The lanes of 64 that a bit vector marks, ascending. -/
def lanesOf (m : BitVec 64) : List Nat := (List.range 64).filter (fun i => m.getLsbD i)

/-- An operation on each element of the active lanes: vd, flags, draws. -/
def Core.vElems (k : Core) (x : Issue) (d : Reg) (pipe : Nat) (f : Nat → Nat → FRes) : Core :=
  let fmt := laneFmt x
  let es : List Elem := (lanesOf (k.act x)).flatMap (fun i => (List.range fmt.perSlot).map (fun e => { lane := i, sub := e, res := f i e }))
  let new := (List.range 64).map (fun i => fmt.pack ((es.filter (fun e => e.lane == i)).map (fun e => e.res.bits)))
  (k.putV x d new).vDone x.core pipe (elemFlags es) (es.any (fun e => e.res.stoch))

/-- Element `e` of lane `i` of a register in the instruction's lane format. -/
def Core.el (k : Core) (x : Issue) (r : Reg) (i e : Nat) : Nat := (laneFmt x).elem (lane (k.getV r) i) e

/-- The value of an element. -/
def Core.ev (k : Core) (x : Issue) (r : Reg) (i e : Nat) : FVal := (laneFmt x).decode (k.el x r i e)

/-- The integer an element of an integer format holds. -/
def NumFmt.intOf (f : NumFmt) (bits : Nat) : Int :=
  if f.isUnsigned then ((bits % 2 ^ f.width : Nat) : Int) else toSigned f.width bits

/-- An integer wrapped into the format. -/
def NumFmt.wrapInt (f : NumFmt) (i : Int) : FRes := { bits := f.encodeInt i, flags := 0#9 }

/-- An integer clamped into the format; SAT tells a clamp. -/
def NumFmt.clampInt (f : NumFmt) (i : Int) : FRes :=
  let c := clampI f.intRange.1 f.intRange.2 i
  { bits := f.encodeInt c, flags := if c = i then 0#9 else fSAT }

/-- An operation of two sources: floating-point formats round an exact result, integer formats take an integer. -/
def Core.vArith (k : Core) (x : Issue) (d a b : Reg) (fp : FVal → FVal → FVal → XRes) (int : Int → Int → FRes) : Core :=
  let f := laneFmt x
  k.vElems x d 1 (fun i e =>
    if f.isInt then int (f.intOf (k.el x a i e)) (f.intOf (k.el x b i e))
    else f.deliver (k.rctx i e) (fp (k.ev x a i e) (k.ev x b i e) (k.ev x d i e)))

/-- Minimum or maximum of two elements (R148): NaN gives way to a number, −0 is below +0; the bits and NANR. -/
def NumFmt.pickElem (f : NumFmt) (wantMax : Bool) (a b : Nat) : FRes :=
  if f.isInt then
    let p := f.intOf a
    let q := f.intOf b
    { bits := if (if wantMax then decide (q ≤ p) else decide (p ≤ q)) then a else b, flags := 0#9 }
  else
    match f.decode a, f.decode b with
    | .nan, .nan => { bits := f.nanBits, flags := fNANR }
    | .nan, _ => { bits := b, flags := 0#9 }
    | _, .nan => { bits := a, flags := 0#9 }
    | p, q => { bits := if (if wantMax then FVal.lt true p q else FVal.lt true q p) then b else a, flags := 0#9 }

/-! ## Transcendental functions (R157) -/

/-- A magnitude with the free error of the unit's internal result: relative error below 2^-rb. -/
def withError (fn rb width bits m : Nat) : Nat :=
  let b := m / 2 ^ rb - m / 2 ^ (rb + 30) - 1
  m - b + Config.internalError fn width bits % (2 * b + 1)

/-- An internal result of sign and magnitude m × 2^e, never exact. -/
def internal (fn : Nat) (f : NumFmt) (bits : Nat) (neg : Bool) (m : Nat) (e : Int) : XRes :=
  { v := .fin neg (withError fn (if f = .f36 then 36 else 16) f.width bits m) e, sticky := true }

/-- A magnitude is a power of two. -/
def isPow2 (m : Nat) : Bool := decide (m = 2 ^ Nat.log2 m)

/-- VRCP of one element. -/
def fnRcp (f : NumFmt) (bits : Nat) : XRes :=
  match f.decode bits with
  | .nan => { v := .nan }
  | .zero s => { v := .inf s, flags := fDZ }
  | .inf s => { v := .zero s }
  | .fin s m e =>
    if isPow2 m then { v := .fin s 1 (-(e + (Nat.log2 m : Int))) }
    else
      let k := 120 + Nat.log2 m
      internal 0 f bits s (2 ^ k / m) (-(e + (k : Int)))

/-- VRSQRT of one element. -/
def fnRsqrt (f : NumFmt) (bits : Nat) : XRes :=
  match f.decode bits with
  | .nan => { v := .nan }
  | .zero s => { v := .inf s, flags := fDZ }
  | .inf s => if s then .invalid else { v := .zero false }
  | .fin s m e =>
    if s then .invalid
    else
      let t := (Nat.log2 m : Int) + e
      if isPow2 m ∧ t % 2 = 0 then { v := .fin false 1 (-(t / 2)) }
      else
        -- an even exponent, then the root of 2^(2K) / m
        let m2 := if e % 2 = 0 then m else 2 * m
        let e2 := if e % 2 = 0 then e else e - 1
        let k := 120 + Nat.log2 m2
        let a := 2 ^ (2 * k) / m2
        internal 1 f bits false (isqrtFrom a (Nat.log2 a / 2 + 1) 0) (-(e2 / 2) - k)

/-- 2^f for a fraction of `n` bits: the product of the roots of 2 that its bits select, in fixed point with `p` fraction bits; `root` is 2^(2^-i). -/
def exp2Bits (p : Nat) (frac : Nat) : Nat → Nat → Nat → Nat
  | 0, _, acc => acc
  | n + 1, root, acc =>
    let r := isqrtFrom (root * 2 ^ p) (p + 2) 0
    exp2Bits p frac n r (if frac.testBit n then acc * r / 2 ^ p else acc)

/-- VEXP2 of one element. -/
def fnExp2 (f : NumFmt) (bits : Nat) : XRes :=
  match f.decode bits with
  | .nan => { v := .nan }
  | .zero _ => { v := .fin false 1 0 }
  | .inf s => if s then { v := .zero false } else { v := .inf false }
  | .fin s m e =>
    if 11 ≤ (Nat.log2 m : Int) + e then { v := .fin false 1 (if s then -2048 else 2048), sticky := decide (e < 0) }
    else
      -- x in units of 2^-96, rounded down
      let i : Int := (if s then -1 else 1) * (m : Int)
      let sh := e + 96
      let u : Int := if 0 ≤ sh then i * 2 ^ sh.toNat else i / 2 ^ (-sh).toNat
      let n := u / 2 ^ 96
      let fr := (u % 2 ^ 96).toNat
      if 0 ≤ e ∨ (m % 2 ^ (-e).toNat = 0) then { v := .fin false 1 n }
      else internal 2 f bits false (exp2Bits 128 fr 96 (2 * 2 ^ 128) (2 ^ 128)) (n - 128)

/-- Fraction bits of log2 of a significand in [1, 2) by repeated squaring, in fixed point with `p` fraction bits. -/
def log2Bits (p : Nat) : Nat → Nat → Nat → Nat
  | 0, _, acc => acc
  | n + 1, y, acc =>
    let y2 := y * y / 2 ^ p
    if 2 ^ (p + 1) ≤ y2 then log2Bits p n (y2 / 2) (2 * acc + 1) else log2Bits p n y2 (2 * acc)

/-- VLOG2 of one element. -/
def fnLog2 (f : NumFmt) (bits : Nat) : XRes :=
  match f.decode bits with
  | .nan => { v := .nan }
  | .zero _ => { v := .inf true, flags := fDZ }
  | .inf s => if s then .invalid else { v := .inf false }
  | .fin s m e =>
    if s then .invalid
    else
      let t := (Nat.log2 m : Int) + e
      if isPow2 m then { v := FVal.ofInt t 0 }
      else
        let y := m * 2 ^ 192 / 2 ^ Nat.log2 m
        let l : Int := t * 2 ^ 120 + (log2Bits 192 120 y 0 : Nat)
        internal 3 f bits (decide (l < 0)) l.natAbs (-120)

/-- An element of a transcendental function: every finite result but the exact cases raises INX. -/
def Core.vFn (k : Core) (x : Issue) (d a : Reg) (fn : NumFmt → Nat → XRes) : Core :=
  k.vElems x d 2 (fun i e => (laneFmt x).deliver (k.rctx i e) (fn (laneFmt x) (k.el x a i e)))

end Sys2Proof.Machine
end

