-- ==== Sys2Proof/Machine/Vector.lean ====
section
/-!
DEFINITION. Vector instructions that access no memory (R147–R157).
-/
namespace Sys2Proof.Machine

/-! ## Arithmetic (R148, R149) -/

/-- VADD. -/
def execVadd (x : Issue) (d a b : Reg) (s : State) : Out :=
  .next (s.issueCore x (shV setAll 3) (fun k => k.vArith x d a b (fun p q _ => FVal.add k.rmode p q) (fun p q => (laneFmt x).wrapInt (p + q))))
/-- VSUB. -/
def execVsub (x : Issue) (d a b : Reg) (s : State) : Out :=
  .next (s.issueCore x (shV setAll 3) (fun k => k.vArith x d a b (fun p q _ => FVal.add k.rmode p q.negate) (fun p q => (laneFmt x).wrapInt (p - q))))
/-- VMUL. -/
def execVmul (x : Issue) (d a b : Reg) (s : State) : Out :=
  .next (s.issueCore x (shV setAll 3) (fun k => k.vArith x d a b (fun p q _ => p.mul q) (fun p q => (laneFmt x).wrapInt (p * q))))
/-- VFMA: vs1 × vs2 + vd, rounded once. -/
def execVfma (x : Issue) (d a b : Reg) (s : State) : Out :=
  .next (s.issueCore x (shV setFl 3) (fun k => k.vArith x d a b (fun p q r => FVal.fma k.rmode p q r) (fun p _ => (laneFmt x).wrapInt p)))
/-- VFNMA: vd − vs1 × vs2, rounded once. -/
def execVfnma (x : Issue) (d a b : Reg) (s : State) : Out :=
  .next (s.issueCore x (shV setFl 3) (fun k => k.vArith x d a b (fun p q r => FVal.fma k.rmode p.negate q r) (fun p _ => (laneFmt x).wrapInt p)))
/-- VMIN and VMAX. -/
def Core.vPick (k : Core) (x : Issue) (d a b : Reg) (wantMax : Bool) : Core :=
  k.vElems x d 1 (fun i e => (laneFmt x).pickElem wantMax (k.el x a i e) (k.el x b i e))
/-- VMIN. -/
def execVmin (x : Issue) (d a b : Reg) (s : State) : Out := .next (s.issueCore x (shV setAll 3) (fun k => k.vPick x d a b false))
/-- VMAX. -/
def execVmax (x : Issue) (d a b : Reg) (s : State) : Out := .next (s.issueCore x (shV setAll 3) (fun k => k.vPick x d a b true))
/-- VABS and VNEG of one element: the sign bit alone, canonical NaN; the most negative integer clamps. -/
def NumFmt.signOp (f : NumFmt) (isAbs : Bool) (bits : Nat) : FRes :=
  if f.isInt then f.clampInt (if isAbs then (f.intOf bits).natAbs else -(f.intOf bits))
  else
    match f.decode bits with
    | .nan => { bits := f.nanBits, flags := fNANR }
    | v =>
      let mag := bits % 2 ^ (f.width - 1)
      { bits := if isAbs || v.neg? then mag else mag + 2 ^ (f.width - 1), flags := 0#9 }
/-- VABS. -/
def execVabs (x : Issue) (d a : Reg) (s : State) : Out :=
  .next (s.issueCore x (shV [0, 1, 2, 3] 2) (fun k => k.vElems x d 1 (fun i e => (laneFmt x).signOp true (k.el x a i e))))
/-- VNEG. -/
def execVneg (x : Issue) (d a : Reg) (s : State) : Out :=
  .next (s.issueCore x (shV [0, 1, 2, 3] 2) (fun k => k.vElems x d 1 (fun i e => (laneFmt x).signOp false (k.el x a i e))))
/-- VDIV. -/
def execVdiv (x : Issue) (d a b : Reg) (s : State) : Out :=
  .next (s.issueCore x (shV setFl 3) (fun k => k.vArith x d a b (fun p q _ => p.div q) (fun p _ => (laneFmt x).wrapInt p)))
/-- VSQRT. -/
def execVsqrt (x : Issue) (d a : Reg) (s : State) : Out :=
  .next (s.issueCore x (shV setFl 2) (fun k => k.vArith x d a a (fun p _ _ => p.sqrt) (fun p _ => (laneFmt x).wrapInt p)))

/-- An operation on the integers of two sources. -/
def Core.vInt2 (k : Core) (x : Issue) (d a b : Reg) (f : Int → Int → FRes) : Core :=
  k.vElems x d 1 (fun i e => f ((laneFmt x).intOf (k.el x a i e)) ((laneFmt x).intOf (k.el x b i e)))
/-- An operation on the integers of one source. -/
def Core.vInt1 (k : Core) (x : Issue) (d a : Reg) (f : Int → FRes) : Core :=
  k.vElems x d 1 (fun i e => f ((laneFmt x).intOf (k.el x a i e)))

/-- VADDS. -/
def execVadds (x : Issue) (d a b : Reg) (s : State) : Out :=
  .next (s.issueCore x (shV setIn 3) (fun k => k.vInt2 x d a b (fun p q => (laneFmt x).clampInt (p + q))))
/-- VSUBS. -/
def execVsubs (x : Issue) (d a b : Reg) (s : State) : Out :=
  .next (s.issueCore x (shV setIn 3) (fun k => k.vInt2 x d a b (fun p q => (laneFmt x).clampInt (p - q))))
/-- VMULQ: the rounded fixed-point product. -/
def execVmulq (x : Issue) (d a b : Reg) (n : Byte) (s : State) : Out :=
  .next (s.issueCore x { shV setIn 4 with bad := immBad x n 0 3 } (fun k =>
    k.vInt2 x d a b (fun p q => (laneFmt x).clampInt (roundShift (p * q) n.toNat))))
/-- VSARR. -/
def execVsarr (x : Issue) (d a : Reg) (n : Byte) (s : State) : Out :=
  .next (s.issueCore x { shV setSg 3 with bad := immBad x n 0 2 } (fun k =>
    k.vInt1 x d a (fun p => (laneFmt x).wrapInt (roundShift p n.toNat))))
/-- A clamp to n bits, signed or unsigned by the format (R149): an element of an unsigned format is read as unsigned, so one with its top bit set takes the upper limit (DEDUCED, log 56). -/
def NumFmt.satBits (f : NumFmt) (n : Nat) (i : Int) : FRes :=
  let c := clampTo (!f.isUnsigned) n i
  { bits := f.encodeInt c, flags := if c = i then 0#9 else fSAT }
/-- VSAT. -/
def execVsat (x : Issue) (d a : Reg) (n : Byte) (s : State) : Out :=
  .next (s.issueCore x { shV setIn 3 with bad := immBad x n 1 2 } (fun k =>
    k.vInt1 x d a (fun p => (laneFmt x).satBits n.toNat p)))

/-! ## Bits, moves and indices (R147, R149) -/

/-- A bitwise operation of two sources. -/
def State.vBits (s : State) (x : Issue) (d a b : Reg) (f : Word → Word → Word) : State :=
  s.issueCore x (shV setAll 3) (fun k => k.vLanes x d (fun i => f (lane (k.getV a) i) (lane (k.getV b) i)))
/-- VAND. -/
def execVand (x : Issue) (d a b : Reg) (s : State) : Out := .next (s.vBits x d a b (fun p q => p &&& q))
/-- VOR. -/
def execVor (x : Issue) (d a b : Reg) (s : State) : Out := .next (s.vBits x d a b (fun p q => p ||| q))
/-- VXOR. -/
def execVxor (x : Issue) (d a b : Reg) (s : State) : Out := .next (s.vBits x d a b (fun p q => p ^^^ q))
/-- VANDN: vs1 and not vs2. -/
def execVandn (x : Issue) (d a b : Reg) (s : State) : Out := .next (s.vBits x d a b (fun p q => p &&& ~~~ q))
/-- VNOT. -/
def execVnot (x : Issue) (d a : Reg) (s : State) : Out :=
  .next (s.issueCore x (shV setAll 2) (fun k => k.vLanes x d (fun i => ~~~ lane (k.getV a) i)))
/-- A shift of each element. -/
def State.vShift (s : State) (x : Issue) (fws : List Nat) (d a : Reg) (n : Byte) (f : NumFmt → Nat → Int) : State :=
  s.issueCore x { shV fws 3 with bad := immBad x n 0 2 } (fun k =>
    k.vElems x d 1 (fun i e => (laneFmt x).wrapInt (f (laneFmt x) (k.el x a i e))))
/-- VSHL. -/
def execVshl (x : Issue) (d a : Reg) (n : Byte) (s : State) : Out := .next (s.vShift x setIn d a n (fun _ b => (b * 2 ^ n.toNat : Nat)))
/-- VSHR. -/
def execVshr (x : Issue) (d a : Reg) (n : Byte) (s : State) : Out := .next (s.vShift x setIn d a n (fun _ b => (b / 2 ^ n.toNat : Nat)))
/-- VSAR. -/
def execVsar (x : Issue) (d a : Reg) (n : Byte) (s : State) : Out := .next (s.vShift x setSg d a n (fun f b => f.intOf b / 2 ^ n.toNat))
/-- VMOV. -/
def execVmov (x : Issue) (d a : Reg) (s : State) : Out :=
  .next (s.issueCore x (shV setAll 2) (fun k => k.vLanes x d (fun i => lane (k.getV a) i)))
/-- VBCAST: each element is ws, or ws[17:0] in a packed format. -/
def execVbcast (x : Issue) (d a : Reg) (s : State) : Out :=
  .next (s.issueCore x (shV setAll 2) (fun k =>
    k.vLanes x d (fun _ => (laneFmt x).pack (List.replicate (laneFmt x).perSlot (k.getW a).toNat))))
/-- VINS: lane (wl mod N) := ws. -/
def execVins (x : Issue) (d a l : Reg) (s : State) : Out :=
  .next (s.issueCore x (shVN setAll 3) (fun k => k.setV d ((fullRow (k.getV d)).set ((k.getW l).toNat % 64) (k.getW a))))
/-- VEXT: wd := lane (wl mod N). -/
def execVext (x : Issue) (d a l : Reg) (s : State) : Out :=
  .next (s.issueCore x (shVN setAll 3) (fun k => k.setW d (lane (k.getV a) ((k.getW l).toNat % 64))))
/-- VIOTA: element e of lane i := i, or 2i + e in a packed format. -/
def execViota (x : Issue) (d : Reg) (s : State) : Out :=
  .next (s.issueCore x (shV setIn 1) (fun k => k.vElems x d 1 (fun i e => { bits := i * (laneFmt x).perSlot + e, flags := 0#9 })))

/-! ## Comparisons and masks (R150) -/

/-- The condition of VCMP on two values; NaN is unordered and −0 equals +0. -/
def vcond (c : Nat) (p q : FVal) : Bool :=
  let un := decide (p = .nan) || decide (q = .nan)
  let lt := FVal.lt false p q
  let gt := FVal.lt false q p
  match c with
  | 0 => !un && !lt && !gt
  | 1 => un || lt || gt
  | 2 => lt
  | 3 => !un && !gt
  | 4 => gt
  | 5 => !un && !lt
  | _ => un

/-- A mask from a test of each lane. -/
def maskOfLanes (f : Nat → Bool) : BitVec 64 := BitVec.ofNat 64 (((List.range 64).map (fun i => flag (f i) i)).sum)

/-- VCMP: bits of inactive lanes are kept or cleared. -/
def execVcmp (x : Issue) (d : MReg) (a b : Reg) (c1 : Byte) (s : State) : Out :=
  .next (s.issueCore x { shV setWd 4 with bad := need (decide (c1.toNat < 7)) 3 } (fun k =>
    let new := maskOfLanes (fun i => vcond c1.toNat (k.ev x a i 0) (k.ev x b i 0))
    let act := k.act x
    k.setM d ((new &&& act) ||| (if zeroing x then 0#64 else k.getM d &&& ~~~ act))))
/-- VSEL. -/
def execVsel (x : Issue) (d a b : Reg) (m : MReg) (s : State) : Out :=
  .next (s.issueCore x (shVN setAll 4) (fun k =>
    k.setV d ((List.range 64).map (fun i => if (k.getM m).getLsbD i then lane (k.getV a) i else lane (k.getV b) i))))
/-- MAND. -/
def execMand (x : Issue) (d a b : MReg) (s : State) : Out := .next (s.issueCore x (shVM 3) (fun k => k.setM d (k.getM a &&& k.getM b)))
/-- MOR. -/
def execMor (x : Issue) (d a b : MReg) (s : State) : Out := .next (s.issueCore x (shVM 3) (fun k => k.setM d (k.getM a ||| k.getM b)))
/-- MXOR. -/
def execMxor (x : Issue) (d a b : MReg) (s : State) : Out := .next (s.issueCore x (shVM 3) (fun k => k.setM d (k.getM a ^^^ k.getM b)))
/-- MNOT. -/
def execMnot (x : Issue) (d a : MReg) (s : State) : Out := .next (s.issueCore x (shVM 2) (fun k => k.setM d (~~~ k.getM a)))
/-- MPOPC. -/
def execMpopc (x : Issue) (d : Reg) (a : MReg) (s : State) : Out := .next (s.issueCore x (shVM 2) (fun k => k.setW d (word (popcount (k.getM a)))))
/-- MFIRST: the index of the lowest set bit, or N. -/
def execMfirst (x : Issue) (d : Reg) (a : MReg) (s : State) : Out := .next (s.issueCore x (shVM 2) (fun k => k.setW d (word (ctz (k.getM a)))))
/-- MTOW: wd[31:0] := ms[32h+31:32h]. -/
def execMtow (x : Issue) (d : Reg) (a : MReg) (h : Byte) (s : State) : Out :=
  .next (s.issueCore x { shVM 3 with bad := need (decide (h.toNat < 2)) 2 } (fun k => k.setW d (word (fld (k.getM a) (32 * h.toNat) 32))))
/-- MFROMW: md[32h+31:32h] := ws[31:0]. -/
def execMfromw (x : Issue) (d : MReg) (a : Reg) (h : Byte) (s : State) : Out :=
  .next (s.issueCore x { shVM 3 with bad := need (decide (h.toNat < 2)) 2 } (fun k =>
    k.setM d (setFld (k.getM d) (32 * h.toNat) 32 (fld (k.getW a) 0 32))))

/-! ## Conversion (R151–R154) -/

/-- PART of c2. -/
def c2Part (c2 : Byte) : Nat := fld c2 0 3
/-- AMAXSEL of c2. -/
def c2Amax (c2 : Byte) : Nat := fld c2 3 2

/-- The control byte of a conversion at which decoding fails; `i` is the index of c1 (R151, R152). -/
def cvtBad (x : Issue) (narrowing : Bool) (c1 c2 : Byte) (i : Nat) : Option Nat :=
  let f := laneFmt x
  match NumFmt.ofCode c1.toNat with
  | none => some i
  | some nf =>
    if nf = .e8m0 ∧ (narrowing = true ∨ f.isInt = true) then some i
    else if nf.perSlot % f.perSlot ≠ 0 then some i
    else if bitAt c2 7 ∨ vpipes ≤ c2Amax c2 ∨ nf.perSlot / f.perSlot ≤ c2Part c2 then some (i + 1)
    else none

/-- The scale exponent of a conversion: ws[8:0] clamped when SCALE is 1 (R152). -/
def cvtScale (c2 : Byte) (w : Word) : Int := if bitAt c2 6 then clampI (-254) 254 (w.setWidth 9).toInt else 0

/-- Positions of the wide elements of the active lanes, ascending. -/
def Core.wideElems (k : Core) (x : Issue) : List Nat :=
  (lanesOf (k.act x)).flatMap (fun i => (List.range (laneFmt x).perSlot).map (fun e => i * (laneFmt x).perSlot + e))

/-- VCVTW: wide element j from stream element pE + j of vs. -/
def Core.vcvtw (k : Core) (x : Issue) (d a : Reg) (c1 c2 : Byte) (ws : Reg) : Core :=
  let f := laneFmt x
  let nf := codeFmt c1.toNat
  let n := nf.perSlot
  let base := c2Part c2 * 64 * f.perSlot
  let src (j : Nat) : FVal := nf.decode (nf.elem (lane (k.getV a) ((base + j) / n)) ((base + j) % n))
  let e := cvtScale c2 (k.getW ws)
  let k1 := k.feed (c2Amax c2) ((k.wideElems x).map src)
  if bitAt c2 5 then k1
  else k1.vElems x d 1 (fun i h => f.convertFrom nf (k.rctx i h) ((src (i * f.perSlot + h)).scale e))

/-- Slots of a narrow format with the bits that no element occupies cleared (R120). -/
def cleanSlot (nf : NumFmt) (w : Word) : Word := w &&& maskOf 36 0 (nf.width * nf.perSlot)

/-- Lanes of vd after stream elements were written: (stream element, bits). -/
def putStream (nf : NumFmt) (old : List Word) (l : List (Nat × Nat)) : List Word :=
  l.foldl (fun v p => v.set (p.1 / nf.perSlot) (cleanSlot nf (nf.putElem (lane v (p.1 / nf.perSlot)) (p.1 % nf.perSlot) p.2))) (fullRow old)

/-- Writes the elements of part p: results of active wide elements; those of inactive lanes are kept or zero (R146, R151). -/
def Core.putPart (k : Core) (x : Issue) (d : Reg) (nf : NumFmt) (base : Nat) (res : List (Nat × FRes)) (perLane pipe : Nat) : Core :=
  let dead : List (Nat × Nat) := if zeroing x then
      (lanesOf (~~~ k.act x)).flatMap (fun i => (List.range perLane).map (fun e => (base + i * perLane + e, 0)))
    else []
  let lanes := putStream nf (k.getV d) (dead ++ res.map (fun r => (base + r.1, r.2.bits)))
  let es := res.map (fun r => ({ lane := (base + r.1) / nf.perSlot, sub := (base + r.1) % nf.perSlot, res := r.2 } : Elem))
  (k.setV d lanes).vDone x.core pipe (elemFlags es) (es.any (fun e => e.res.stoch))

/-- VCVTN: stream element pE + j of vd from wide element j. -/
def Core.vcvtn (k : Core) (x : Issue) (d a : Reg) (c1 c2 : Byte) (ws : Reg) : Core :=
  let f := laneFmt x
  let nf := codeFmt c1.toNat
  let n := nf.perSlot
  let base := c2Part c2 * 64 * f.perSlot
  let src (j : Nat) : FVal := k.ev x a (j / f.perSlot) (j % f.perSlot)
  let e := cvtScale c2 (k.getW ws)
  let k1 := k.feed (c2Amax c2) ((k.wideElems x).map src)
  if bitAt c2 5 then k1
  else k1.putPart x d nf base ((k.wideElems x).map (fun j =>
    (j, nf.convertFrom f (k.rctx ((base + j) / n) ((base + j) % n)) ((src j).scale e)))) f.perSlot 1

/-- VCVTW. -/
def execVcvtw (x : Issue) (d a : Reg) (c1 c2 : Byte) (ws : Reg) (s : State) : Out :=
  .next (s.issueCore x { shV setAll 5 with bad := cvtBad x false c1 c2 2 } (fun k => k.vcvtw x d a c1 c2 ws))
/-- VCVTN. -/
def execVcvtn (x : Issue) (d a : Reg) (c1 c2 : Byte) (ws : Reg) (s : State) : Out :=
  .next (s.issueCore x { shV setAll 5 with bad := cvtBad x true c1 c2 2 } (fun k => k.vcvtn x d a c1 c2 ws))

/-- The flag that a source raises in a block that a NaN or infinity spoils (R125). -/
def spoilFlag : FVal → Flg | .nan => fNANR | .inf _ => fINFR | _ => 0#9

/-- The elements of one Microscaling block of (position, source): results and the scale byte (R125). -/
def mxBlock (nf : NumFmt) (ctx : Nat → RCtx) (l : List (Nat × FVal)) : List (Nat × FRes) × Nat :=
  match mxScale nf (l.map (fun p => p.2)) with
  | none => (l.map (fun p => (p.1, { bits := 0, flags := spoilFlag p.2 })), 255)
  | some e => (l.map (fun p => (p.1, mxElem nf (ctx p.1) e p.2)), (e + 127).toNat)

/-- VMXQ: two blocks of 32 lanes into part p of vd, their scales into wd. -/
def Core.vmxq (k : Core) (x : Issue) (d wd a : Reg) (c1 c2 : Byte) : Core :=
  let nf := codeFmt c1.toNat
  let n := nf.perSlot
  let base := c2Part c2 * 64
  let src (j : Nat) : FVal := NumFmt.f36.decode (lane (k.getV a) j).toNat
  let js := lanesOf (k.act x)
  let ctx (j : Nat) : RCtx := k.rctx ((base + j) / n) ((base + j) % n)
  let b0 := mxBlock nf ctx ((js.filter (fun j => decide (j < 32))).map (fun j => (j, src j)))
  let b1 := mxBlock nf ctx ((js.filter (fun j => decide (32 ≤ j))).map (fun j => (j, src j)))
  ((k.feed (c2Amax c2) (js.map src)).putPart x d nf base (b0.1 ++ b1.1) 1 2).setW wd (word (b0.2 + b1.2 * 256))

/-- VMXQ. -/
def execVmxq (x : Issue) (d wd a : Reg) (c1 c2 : Byte) (s : State) : Out :=
  let bad := if ([1, 2, 5, 6, 7, 8].contains c1.toNat) = false then some 3
    else if 32 ≤ c2.toNat ∨ vpipes ≤ c2Amax c2 ∨ (codeFmt c1.toNat).perSlot ≤ c2Part c2 then some 4 else none
  .next (s.issueCore x { shV [0] 5 with bad := bad } (fun k => k.vmxq x d wd a c1 c2))

/-- VSCHOOSE: reads and clears AMAXp and chooses a scale exponent (R140, R154). -/
def Core.vschoose (k : Core) (d a : Reg) (c1 c3 : Byte) : Core :=
  let p := fld c3 3 2
  let am := k.getAmax p
  let k1 := k.setAmax p 0#36
  let nonfin := flag (bitAt am 34) 10
  if bitAt am 35 then
    k1.setW d (word (((chooseExp (codeFmt c1.toNat) am (fld c3 0 3)) % 512).toNat + nonfin))
  else (k1.note 1 [{ flags := fISC }]).setW d (word (fld (k.getW a) 0 9 + 2 ^ 9 + nonfin))

/-- VSCHOOSE. -/
def execVschoose (x : Issue) (d a : Reg) (c1 c3 : Byte) (s : State) : Out :=
  let bad := if c1 = 13#8 ∨ 14 < c1.toNat then some 2
    else if 32 ≤ c3.toNat ∨ vpipes ≤ fld c3 3 2 then some 3 else none
  .next (s.issueCore x { shVM 4 with bad := bad } (fun k => k.vschoose d a c1 c3))

/-! ## Reductions (R155) -/

/-- One level of the fixed tree: node i joins partial 2i and 2i + 1; `f` takes the left lane. -/
def treeLevel {α : Type} (k : Nat) (f : Nat → α → α → α) (l : List α) : List α :=
  match l with
  | a :: b :: r => f k a b :: treeLevel (k + 1) f r
  | l => l

/-- A partial result with the flags and draws of its nodes; none for a lane that does not contribute. -/
structure Partial where
  bits : Nat
  flags : Flg
  stoch : Bool := false

/-- The six levels over 64 lanes; `f` takes the level and the left lane. -/
def treeAll {α : Type} (f : Nat → Nat → α → α → α) (l : List α) : List α :=
  (List.range 6).foldl (fun l k => treeLevel 0 (fun i => f (k + 1) (i * 2 ^ (k + 1))) l) l

/-- Writes one result into every element of each active lane; its flags are named at the lowest active lane. -/
def Core.putReduced (k : Core) (x : Issue) (d : Reg) (r : Partial) : Core :=
  match lanesOf (k.act x) with
  | [] => (k.putV x d []).vDone x.core 2 [] r.stoch
  | i :: _ =>
    let w := (laneFmt x).pack (List.replicate (laneFmt x).perSlot r.bits)
    (k.vLanes x d (fun _ => w)).vDone x.core 2 [{ flags := r.flags, slot := i }] r.stoch

/-- A floating-point addition node of VRSUM. -/
def Core.sumNode (k : Core) (f : NumFmt) (level l : Nat) (a b : Partial) : Partial :=
  let r := f.deliver (k.rctx l level) (FVal.add k.rmode (f.decode a.bits) (f.decode b.bits))
  { bits := r.bits, flags := a.flags ||| b.flags ||| r.flags, stoch := a.stoch || b.stoch || r.stoch }

/-- VRSUM in a floating-point format: the fixed tree; an inactive lane enters as −0. -/
def Core.vrsumF (k : Core) (x : Issue) (a : Reg) : Partial :=
  let f := laneFmt x
  let leaf (i : Nat) : Partial :=
    if (k.act x).getLsbD i = false then { bits := f.signBits true, flags := 0#9 }
    else if f.perSlot = 1 then { bits := k.el x a i 0, flags := 0#9 }
    else k.sumNode f 0 i { bits := k.el x a i 0, flags := 0#9 } { bits := k.el x a i 1, flags := 0#9 }
  (treeAll (k.sumNode f) ((List.range 64).map leaf)).headD { bits := 0, flags := 0#9 }

/-- The integers of the active elements with their places. -/
def Core.activeInts (k : Core) (x : Issue) (a : Reg) : List (Nat × Nat × Int) :=
  (lanesOf (k.act x)).flatMap (fun i => (List.range (laneFmt x).perSlot).map (fun e => (i, e, (laneFmt x).intOf (k.el x a i e))))

/-- VRSUM. -/
def execVrsum (x : Issue) (d a : Reg) (s : State) : Out :=
  .next (s.issueCore x (shV setAll 2) (fun k =>
    if (laneFmt x).isInt then
      let r := (laneFmt x).clampInt (((k.activeInts x a).map (fun p => p.2.2)).sum)
      k.putReduced x d { bits := r.bits, flags := r.flags }
    else k.putReduced x d (k.vrsumF x a)))

/-- A node of VRMAX or VRMIN; an inactive lane does not contribute. -/
def pickNode (f : NumFmt) (wantMax : Bool) (a b : Option Partial) : Option Partial :=
  match a, b with
  | none, b => b
  | a, none => a
  | some p, some q =>
    let r := f.pickElem wantMax p.bits q.bits
    some { bits := r.bits, flags := p.flags ||| q.flags ||| r.flags }

/-- VRMAX and VRMIN over the tree. -/
def Core.vrpick (k : Core) (x : Issue) (d a : Reg) (wantMax : Bool) : Core :=
  let f := laneFmt x
  let leaf (i : Nat) : Option Partial :=
    if (k.act x).getLsbD i = false then none
    else ((List.range f.perSlot).map (fun e => some { bits := k.el x a i e, flags := 0#9 })).foldl (pickNode f wantMax) none
  match (treeAll (fun _ _ => pickNode f wantMax) ((List.range 64).map leaf)).headD none with
  | none => k.putReduced x d { bits := 0, flags := 0#9 }
  | some r => k.putReduced x d (if !f.isInt && decide (f.decode r.bits = .nan) then { r with bits := f.nanBits, flags := r.flags ||| fNANR } else r)

/-- VRMAX. -/
def execVrmax (x : Issue) (d a : Reg) (s : State) : Out := .next (s.issueCore x (shV setAll 2) (fun k => k.vrpick x d a true))
/-- VRMIN. -/
def execVrmin (x : Issue) (d a : Reg) (s : State) : Out := .next (s.issueCore x (shV setAll 2) (fun k => k.vrpick x d a false))

/-- VSCAN: the clamped exact sum of the active elements up to each element. -/
def execVscan (x : Issue) (d a : Reg) (s : State) : Out :=
  .next (s.issueCore x (shV setIn 2) (fun k =>
    let l := k.activeInts x a
    k.vElems x d 2 (fun i e =>
      (laneFmt x).clampInt (((l.filter (fun p => decide (p.1 < i) || (p.1 == i && decide (p.2.1 ≤ e)))).map (fun p => p.2.2)).sum))))

/-! ## Lane movement (R156) -/

/-- VPERM. -/
def execVperm (x : Issue) (d a i : Reg) (s : State) : Out :=
  .next (s.issueCore x (shV setAll 3) (fun k => k.vLanes x d (fun l => lane (k.getV a) ((lane (k.getV i) l).toNat % 64))))
/-- VPERM2: indices mod 2N. -/
def execVperm2 (x : Issue) (d a b i : Reg) (s : State) : Out :=
  .next (s.issueCore x (shV setAll 4) (fun k => k.vLanes x d (fun l =>
    let j := (lane (k.getV i) l).toNat % 128
    if j < 64 then lane (k.getV a) j else lane (k.getV b) (j - 64))))
/-- VSLIDEUP. -/
def execVslideup (x : Issue) (d a r : Reg) (s : State) : Out :=
  .next (s.issueCore x (shV setAll 3) (fun k => k.vLanes x d (fun i =>
    let n := (k.getW r).toNat
    if n ≤ i then lane (k.getV a) (i - n) else 0#36)))
/-- VSLIDEDN. -/
def execVslidedn (x : Issue) (d a r : Reg) (s : State) : Out :=
  .next (s.issueCore x (shV setAll 3) (fun k => k.vLanes x d (fun i =>
    let n := (k.getW r).toNat
    if i + n < 64 then lane (k.getV a) (i + n) else 0#36)))
/-- VCOMPRESS: the marked lanes in order, the rest zero. -/
def execVcompress (x : Issue) (d a : Reg) (m : MReg) (s : State) : Out :=
  .next (s.issueCore x (shVN setAll 3) (fun k =>
    k.setV d (overlay zeroRow ((lanesOf (k.getM m)).map (fun i => lane (k.getV a) i)))))

/-! ## Transcendental functions (R157) -/

/-- VRCP. -/
def execVrcp (x : Issue) (d a : Reg) (s : State) : Out := .next (s.issueCore x (shV setFl 2) (fun k => k.vFn x d a fnRcp))
/-- VRSQRT. -/
def execVrsqrt (x : Issue) (d a : Reg) (s : State) : Out := .next (s.issueCore x (shV setFl 2) (fun k => k.vFn x d a fnRsqrt))
/-- VEXP2. -/
def execVexp2 (x : Issue) (d a : Reg) (s : State) : Out := .next (s.issueCore x (shV setFl 2) (fun k => k.vFn x d a fnExp2))
/-- VLOG2. -/
def execVlog2 (x : Issue) (d a : Reg) (s : State) : Out := .next (s.issueCore x (shV setFl 2) (fun k => k.vFn x d a fnLog2))

end Sys2Proof.Machine
end

