-- ==== Sys2Proof/Machine/Plates.lean ====
section
/-!
DEFINITION. Plate instructions that access no memory (R162–R177, R179): configuration, release, flags, conversion, quantisation and row moves.
-/
namespace Sys2Proof.Machine

/-! ## Shapes, faults and extents -/

/-- A plate and matrix map instruction with `n` operand and control bytes, which waits for the array instructions in flight (R182) (DEDUCED, log 23). -/
def shP (n : Nat) : Shape := { esc := true, ops := n, before := some Core.drain }

/-- A plate operand at index `i`: numbers of PLATES or more are illegal (R169). -/
def plBad (p : Reg) (i : Nat) : Option Nat := need (decide (p.toNat < nplates)) i

/-- The first failing byte among operands in encoding order. -/
def firstBad : List (Option Nat) → Option Nat
  | [] => none
  | some i :: _ => some i
  | none :: r => firstBad r

/-- The info word of a plate fault: plate, operand position, reason (R174). -/
def plInfo (plate opnd reason : Nat) : Word := word (plate % 32 + opnd * 32 + reason * 128)

/-- A failed check: its cause and info word. -/
abbrev PlErr := Nat × Word

/-- A shape fault. -/
def shapeErr (plate opnd reason : Nat) : PlErr := (0x07, plInfo plate opnd reason)
/-- A state fault. -/
def stateErr (plate opnd reason : Nat) : PlErr := (0x08, plInfo plate opnd reason)

/-- The first failed check of a list, in order. -/
def firstErr : List (Option PlErr) → Option PlErr
  | [] => none
  | some e :: _ => some e
  | none :: r => firstErr r

/-- A check that fails with `e` unless a condition holds. -/
def chk (ok : Bool) (e : PlErr) : Option PlErr := if ok then none else some e

/-- Rows and slots of a plate that a PSO prefix governs (R165). -/
def psoExtent (x : Issue) (p : Plate) : Nat × Nat :=
  match x.pso with
  | some (r, s) => (r.toNat + 1, s.toNat + 1)
  | none => (p.nrows, p.nslots)

/-- The PSO extent fits the configured one: reasons 0 and 1. -/
def psoChk (x : Issue) (p : Plate) (plate opnd : Nat) : Option PlErr :=
  let e := psoExtent x p
  firstErr [chk (decide (e.1 ≤ p.nrows)) (shapeErr plate opnd 0), chk (decide (e.2 ≤ p.nslots)) (shapeErr plate opnd 1)]

/-- A source plate holds data: EMPTY reason 0, LOADING reason 1. -/
def srcChk (p : Plate) (plate opnd : Nat) : Option PlErr :=
  firstErr [chk (p.state != 0) (stateErr plate opnd 0), chk (p.state != 2) (stateErr plate opnd 1)]

/-- A destination plate is not LOADING. -/
def dstChk (p : Plate) (plate opnd : Nat) : Option PlErr := chk (p.state != 2) (stateErr plate opnd 1)

/-- Issues a plate instruction; a failed check is a precise fault. -/
def State.plateOp (s : State) (x : Issue) (h : Shape) (f : Core → Except PlErr Core) : State :=
  s.issue x h (fun s =>
    match f (s.core x.core) with
    | .ok k => .next (s.setCore x.core k)
    | .error e => .fault e.1 e.2 0#72)

/-! ## Configuration and release (R163, R166) -/

/-- PLCFG: checks of R163 in order, then the new configuration. -/
def Core.plcfg (k : Core) (p : Nat) (w : Word) : Except PlErr Core :=
  let e := firstErr [chk (decide (fld w 0 8 < 64)) (shapeErr p 0 0), chk (decide (fld w 8 8 < 64)) (shapeErr p 0 1),
    chk (decide (fld w 16 5 < 15)) (shapeErr p 0 2)]
  match e with
  | some e => .error e
  | none => .ok ((k.setPlate p { (k.plate p).empty with cfg := word (fld w 0 21) }).dropLatch p).pdirty

/-- PLCFG. -/
def execPlcfg (x : Issue) (p r : Reg) (s : State) : Out :=
  .next (s.plateOp x { shP 2 with bad := plBad p 0 } (fun k => k.plcfg p.toNat (k.getW r)))

/-- PLGET: PL_CFG, PL_STATUS or PL_FPOS. -/
def execPlget (x : Issue) (d p : Reg) (sel : Byte) (s : State) : Out :=
  .next (s.plateOp x { shP 3 with bad := firstBad [plBad p 1, need (decide (sel.toNat ≤ 2)) 2] } (fun k =>
    let q := k.plate p.toNat
    .ok (k.setW d (if sel = 0#8 then q.cfg else if sel = 1#8 then q.status else q.fpos))))

/-- A plate released: EMPTY, its reuse latches dropped. -/
def Core.plrel (k : Core) (p : Nat) : Core := ((k.setPlate p (k.plate p).empty).dropLatch p).pdirty

/-- PLREL. -/
def execPlrel (x : Issue) (p : Reg) (s : State) : Out :=
  .next (s.plateOp x { shP 1 with bad := plBad p 0 } (fun k => .ok (k.plrel p.toNat)))

/-- PLRELM: every plate whose bit of ws is 1. -/
def execPlrelm (x : Issue) (r : Reg) (s : State) : Out :=
  .next (s.plateOp x (shP 1) (fun k =>
    .ok (((List.range nplates).filter (fun p => bitAt (k.getW r) p)).foldl (fun k p => k.plrel p) k)))

/-- PLCLRF: the flags, FPV and PL_FPOS cleared. -/
def execPlclrf (x : Issue) (p : Reg) (s : State) : Out :=
  .next (s.plateOp x { shP 1 with bad := plBad p 0 } (fun k =>
    let q := k.plate p.toNat
    .ok (k.setPlate p.toNat { q with status := setFld q.status 10 6 0, fpos := 0#36 })))

/-! ## Conversion (R175, R176) -/

/-- One element written to a plate. -/
structure PElem where
  row : Nat
  slot : Nat
  sub : Nat
  res : FRes

/-- Element `j` of a plate row. -/
def Plate.elem (p : Plate) (f : NumFmt) (r j : Nat) : Nat := f.elem (p.slot r (j / f.perSlot)) (j % f.perSlot)

/-- Writes one converted row: slots, plate flags, arithmetic flags, stochastic count. -/
def Core.putCvtRow (k : Core) (d : Nat) (f : NumFmt) (r slots : Nat) (res : List FRes) : Core :=
  let es := res.zipIdx.map (fun e => ({ row := r, slot := e.2 / f.perSlot, sub := e.2 % f.perSlot, res := e.1 } : PElem))
  let p := (k.plate d).setRow r (packRow f slots (res.map (fun e => e.bits)))
  let p := p.note 0 (es.map (fun e => { flags := e.res.flags, row := e.row, slot := e.slot, sub := e.sub }))
  let k := (k.setPlate d p).note 5 (es.map (fun e => { flags := e.res.flags, plate := d, row := e.row, slot := e.slot, sub := e.sub }))
  k.countStoch (res.any (fun e => e.stoch))

/-- The end of an instruction that wrote plates: VALID, latches dropped, PDIRTY (DEDUCED, log 22). -/
def Core.validate (k : Core) (p : Nat) : Core := ((k.setPlate p ((k.plate p).setState 1)).dropLatch p).pdirty

/-- The checks of PLCVT; a reserved format, which only PLRS can give a plate, is refused with format 13 (log 24). -/
def Core.plcvtChk (k : Core) (x : Issue) (d a : Nat) : Option PlErr :=
  let pd := k.plate d
  let pa := k.plate a
  let e := psoExtent x pd
  firstErr [psoChk x pd d 0, chk (pd.fmt != 13 && decide (pd.fmt < 15)) (shapeErr d 0 2), chk (pa.fmt != 13 && decide (pa.fmt < 15)) (shapeErr a 1 2),
    chk (e.1 == pa.nrows && e.2 * (codeFmt pd.fmt).perSlot == pa.nslots * (codeFmt pa.fmt).perSlot) (shapeErr a 1 4),
    dstChk pd d 0, srcChk pa a 1]

/-- PLCVT: every element of ps in the format of pd, row by row. -/
def Core.plcvt (k0 : Core) (x : Issue) (d a : Nat) (c2 : Byte) (ws : Word) : Except PlErr Core :=
  match k0.plcvtChk x d a with
  | some e => .error e
  | none =>
    let pa := k0.plate a
    let fd := codeFmt (k0.plate d).fmt
    let fa := codeFmt pa.fmt
    let rows := (psoExtent x (k0.plate d)).1
    let slots := (psoExtent x (k0.plate d)).2
    let n := slots * fd.perSlot
    let e := cvtScale c2 ws
    let src (r : Nat) : List FVal := (List.range n).map (fun j => fa.decode (pa.elem fa r j))
    let k := (k0.reuse x (some (a, pa.nrows, pa.nslots)) none).feed (c2Amax c2) ((List.range rows).flatMap src)
    if bitAt c2 5 then .ok k
    else
      let step (acc : Core × Flg) (r : Nat) : Core × Flg :=
        let res := (src r).zipIdx.map (fun v =>
          fd.convertFrom fa (acc.1.rctx (v.2 / fd.perSlot) (v.2 % fd.perSlot)) (v.1.scale e))
        (acc.1.putCvtRow d fd r slots res, acc.2 ||| res.foldl (fun f e => f ||| e.flags) 0#9)
      let out := (List.range rows).foldl step (k, 0#9)
      .ok ((out.1.validate d).atrapOf out.2)

/-- PLCVT; c2[2:0] must be zero (R169). -/
def execPlcvt (x : Issue) (d a : Reg) (c2 : Byte) (r : Reg) (s : State) : Out :=
  .next (s.plateOp x { shP 4 with
      psoOk := true
      bad := firstBad [plBad d 0, plBad a 1, need (fld c2 0 3 == 0 && !bitAt c2 7 && decide (c2Amax c2 < vpipes)) 2] }
    (fun k => k.plcvt x d.toNat a.toNat c2 (k.getW r)))

/-- The checks of PLMXQ. -/
def Core.plmxqChk (k : Core) (x : Issue) (d e a : Nat) : Option PlErr :=
  let pd := k.plate d
  let pe := k.plate e
  let pa := k.plate a
  let ext := psoExtent x pd
  firstErr [psoChk x pd d 0, chk ([1, 2, 5, 6, 7, 8].contains pd.fmt) (shapeErr d 0 2),
    chk (pe.fmt == 13) (shapeErr e 1 2), chk (pe.nrows == ext.1) (shapeErr e 1 4),
    chk (pa.fmt == 0) (shapeErr a 2 2), chk (pa.nslots % 32 == 0) (shapeErr a 2 3),
    chk (pa.nrows == ext.1 && pa.nslots == ext.2 * (codeFmt pd.fmt).perSlot && decide (ceilDiv pa.nslots 128 ≤ pe.nslots)) (shapeErr a 2 4),
    dstChk pd d 0, dstChk pe e 1, srcChk pa a 2]

/-- PLMXQ: blocks of 32 elements into pd, their scales into pe, row by row. -/
def Core.plmxq (k0 : Core) (x : Issue) (d e a : Nat) (c2 : Byte) : Except PlErr Core :=
  match k0.plmxqChk x d e a with
  | some er => .error er
  | none =>
    let pa := k0.plate a
    let fd := codeFmt (k0.plate d).fmt
    let rows := (psoExtent x (k0.plate d)).1
    let slots := (psoExtent x (k0.plate d)).2
    let src (r : Nat) : List (Nat × FVal) := (List.range pa.nslots).map (fun j => (j, NumFmt.f36.decode (pa.slot r j).toNat))
    let blocks (k : Core) (r : Nat) : List (List (Nat × FRes) × Nat) := (List.range (pa.nslots / 32)).map (fun b =>
      mxBlock fd (fun j => k.rctx (j / fd.perSlot) (j % fd.perSlot)) (((src r).drop (32 * b)).take 32))
    let k := (k0.reuse x (some (a, pa.nrows, pa.nslots)) none).feed (c2Amax c2)
      ((List.range rows).flatMap (fun r => (src r).map (fun p => p.2)))
    let step (acc : Core × Flg) (r : Nat) : Core × Flg :=
      let bs := blocks acc.1 r
      let res := bs.flatMap (fun b => b.1.map (fun p => p.2))
      let k1 := acc.1.putCvtRow d fd r slots res
      let pe := k1.plate e
      let scales := packRow .e8m0 pe.nslots (bs.map (fun b => b.2))
      (k1.setPlate e (pe.setRow r scales), acc.2 ||| res.foldl (fun f e => f ||| e.flags) 0#9)
    let out := (List.range rows).foldl step (k, 0#9)
    .ok (((out.1.validate d).validate e).atrapOf out.2)

/-- PLMXQ; only AMAXSEL of c2 may be non-zero. -/
def execPlmxq (x : Issue) (d e a : Reg) (c2 : Byte) (s : State) : Out :=
  .next (s.plateOp x { shP 4 with
      psoOk := true
      bad := firstBad [plBad d 0, plBad e 1, plBad a 2, need (fld c2 0 3 == 0 && fld c2 5 3 == 0 && decide (c2Amax c2 < vpipes)) 3] }
    (fun k => k.plmxq x d.toNat e.toNat a.toNat c2))

/-! ## Row moves (R177) -/

/-- PLMVR: lane i takes slot i, lanes past the plate's slots take zero. -/
def execPlmvr (x : Issue) (d p r : Reg) (s : State) : Out :=
  .next (s.plateOp x { shP 3 with maskOk := true, bad := plBad p 1 } (fun k =>
    let q := k.plate p.toNat
    let row := (k.getW r).toNat
    match firstErr [chk (decide (row < q.nrows)) (shapeErr p.toNat 0 5), srcChk q p.toNat 0] with
    | some e => .error e
    | none =>
      .ok ((k.reuse x (some (p.toNat, q.nrows, q.nslots)) none).vLanes x d (fun i => if i < q.nslots then q.slot row i else 0#36))))

/-- PLMRV: slot i takes lane i; slots of inactive lanes are kept or zero. -/
def execPlmrv (x : Issue) (p a r : Reg) (s : State) : Out :=
  .next (s.plateOp x { shP 3 with maskOk := true, bad := plBad p 0 } (fun k =>
    let q0 := k.plate p.toNat
    let row := (k.getW r).toNat
    match firstErr [chk (decide (row < q0.nrows)) (shapeErr p.toNat 0 5), dstChk q0 p.toNat 0] with
    | some e => .error e
    | none =>
      let q := q0.zeroed
      let new := (maskLanes (k.act x) (zeroing x) (q.row row) (k.getV a)).take (min q.nslots 64)
      .ok ((k.setPlate p.toNat (q.setRow row new)).validate p.toNat)))

end Sys2Proof.Machine
end

