-- ==== Sys2Proof/Machine/Array.lean ====
section
/-!
DEFINITION. Array instructions that access no memory (R189–R206): stationary loads, passes, status; and the completion of work in flight.
-/
namespace Sys2Proof.Machine

/-! ## Format rules (R187, R197) -/

/-- Group of a stationary or streaming format; formats pair within a group. -/
def fmtGroup : Nat → Option Nat
  | 6 => some 0 | 7 => some 1 | 8 => some 1 | 1 => some 2 | 2 => some 2 | 3 => some 3 | 4 => some 3 | 5 => some 4 | 9 => some 5
  | _ => none

/-- Element formats of Microscaling operands. -/
def mxFmt (f : Nat) : Bool := [1, 2, 5, 6, 7, 8].contains f

/-- The accumulator format that a streaming format requires. -/
def accFmt (mx : Bool) (f : Nat) : Nat := if f = 9 ∨ (f = 5 ∧ mx = false) then 11 else 0

/-- A stationary set fits a partition of a layout. -/
def extentOk (part n k : Nat) : Bool := decide (n ≤ partCols part) && decide (k ≤ partRows part)

/-! ## Issue (R195) -/

/-- Array instructions in flight on a partition. -/
def Core.inFlight (k : Core) (p : Nat) : Nat := (k.arrQ.filter (fun o => o.part == p)).length

/-- Completes the oldest work until a partition has room for one more; `n` bounds the steps. -/
def Core.makeRoom (p : Nat) : Nat → Core → Core
  | 0, k => k
  | n + 1, k => if k.inFlight p < 4 then k else Core.makeRoom p n k.arrStep

/-- A fifth instruction on a partition waits at issue (R195). -/
def Core.roomFor (part : Nat) (k : Core) : Core := k.makeRoom part k.arrQ.length

/-- Puts an array instruction in flight. -/
def Core.launch (k : Core) (o : ArrOp) : Core :=
  { k with arrQ := k.arrQ ++ [{ o with ovmode := k.ovmode, level := k.pl }] }

/-- Issues an array instruction: its checks see the state after the work in flight; a failed check is a precise fault. -/
def State.arrayOp (s : State) (x : Issue) (h : Shape) (check : Core → Option PlErr) (go : Core → Core) : State :=
  s.issue x h (fun s =>
    let k := s.core x.core
    match check k.drain with
    | some e => .fault e.1 e.2 0#72
    | none => .next (s.setCore x.core (go k)))

/-! ## Stationary loads (R192, R197, R198) -/

/-- The checks of a load, in the order of R202. -/
def Core.loadChk (k : Core) (x : Issue) (kind : ArrKind) (w e part : Nat) : Option PlErr :=
  let pw := k.plate w
  let pe := k.plate e
  let rows := (psoExtent x pw).1
  let slots := (psoExtent x pw).2
  let n := (codeFmt pw.fmt).perSlot
  let mx := kind = .ldx
  let sp := kind = .ldsp
  let two := mx || sp
  firstErr [chk (decide (part < partCount k.part)) (shapeErr w 0 9), psoChk x pw w 0,
    chk (if mx then mxFmt pw.fmt else (fmtGroup pw.fmt).isSome) (shapeErr w 0 2),
    chk (!mx || slots * n % 32 == 0) (shapeErr w 0 3), srcChk pw w 0,
    chk (!mx || pe.fmt == 13) (shapeErr e 1 2), chk (!sp || pe.fmt == 12) (shapeErr e 1 2),
    (if two then srcChk pe e 1 else none),
    chk (!mx || (pe.nrows == rows && decide (ceilDiv (slots * n) 128 ≤ pe.nslots))) (shapeErr e 1 4),
    chk (!sp || (pe.nrows == rows && pe.nslots == ceilDiv slots 2)) (shapeErr e 1 4),
    chk (!sp || slots % 2 == 0) (shapeErr w 0 10),
    chk (extentOk k.part rows slots) (shapeErr w 0 8)]

/-- Issues a stationary load. -/
def State.arrLoad (s : State) (x : Issue) (h : Shape) (kind : ArrKind) (w e : Nat) (c : Byte) : State :=
  s.arrayOp x h (fun k => k.loadChk x kind w e c.toNat) (fun k =>
    let p := k.drain.plate w
    let q := k.drain.plate e
    let ext := psoExtent x p
    let k1 := k.launch { kind := kind, part := c.toNat, p0 := w, p1 := e, rows := ext.1, slots := ext.2 }
    k1.reuse x (some (w, ext.1, ext.2)) (if kind = .ld then none else some (e, q.nrows, q.nslots)))

/-- The shape of a load: plates, control byte with [7:2] reserved. -/
def shLoad (plates : List Reg) (c : Byte) : Shape :=
  { shP (plates.length + 1) with
    psoOk := true
    before := some (Core.roomFor c.toNat)
    bad := firstBad ((plates.zipIdx.map (fun p => plBad p.1 p.2)) ++ [need (decide (c.toNat < 4)) plates.length]) }

/-- ARLDS. -/
def execArlds (x : Issue) (p : Reg) (c : Byte) (s : State) : Out :=
  .next (s.arrLoad x (shLoad [p] c) .ld p.toNat p.toNat c)
/-- ARLDSX. -/
def execArldsx (x : Issue) (p e : Reg) (c : Byte) (s : State) : Out :=
  .next (s.arrLoad x (shLoad [p, e] c) .ldx p.toNat e.toNat c)
/-- ARLDSP. -/
def execArldsp (x : Issue) (p m : Reg) (c : Byte) (s : State) : Out :=
  .next (s.arrLoad x (shLoad [p, m] c) .ldsp p.toNat m.toNat c)

/-! ## Passes (R186, R190, R197–R202) -/

/-- The checks of a pass, in the order of R202; `k` is the core after the work in flight. -/
def Core.passChk (k : Core) (x : Issue) (kind : ArrKind) (c a e : Nat) (ws wg wk : Word) : Option PlErr :=
  let part := fld ws 12 2
  let swap := bitAt ws 14
  let pc := k.plate c
  let pa := k.plate a
  let pb := k.plate (a + 1)
  let pe := k.plate e
  let ext := psoExtent x pa
  let n := (codeFmt pa.fmt).perSlot
  let mx := kind = .mmax
  let cv := kind = .mmacv
  let m := if cv then pc.nrows else ext.1
  let set := k.aset (if swap then bgSel part else fgSel part)
  let pair := kind = .mma && set.valid && set.sparse
  firstErr [chk (decide (part < partCount k.part)) (shapeErr c 0 9),
    chk (pc.fmt == 0 || pc.fmt == 11) (shapeErr c 0 2), dstChk pc c 0,
    psoChk x pa a 1, chk (if mx then mxFmt pa.fmt else (fmtGroup pa.fmt).isSome) (shapeErr a 1 2),
    chk (!mx || ext.2 * n % 32 == 0) (shapeErr a 1 3), srcChk pa a 1,
    chk (!mx || pe.fmt == 13) (shapeErr e 2 2), (if mx then srcChk pe e 2 else none),
    chk (pc.fmt == accFmt mx pa.fmt) (shapeErr c 0 2), chk (pc.nrows == m) (shapeErr c 0 4),
    chk (!mx || (pe.nrows == m && decide (ceilDiv (ext.2 * n) 128 ≤ pe.nslots))) (shapeErr e 2 4),
    chk (!pair || (a % 2 == 0 && decide (a + 1 < nplates))) (shapeErr a 1 10),
    (if pair then
      firstErr [psoChk x pb (a + 1) 1, chk (pb.fmt == pa.fmt && psoExtent x pb == ext) (shapeErr (a + 1) 1 4), srcChk pb (a + 1) 1]
    else none),
    chk set.valid (stateErr set.src 0 8),
    chk (set.mx == mx && (!set.sparse || kind = .mma)) (shapeErr set.src 0 10),
    chk (extentOk k.part set.n set.k) (shapeErr set.src 0 8),
    chk (fmtGroup set.fmt == fmtGroup pa.fmt) (shapeErr set.src 0 2),
    chk (ext.2 == set.k) (shapeErr set.src 0 4), chk (pc.nslots == set.n) (shapeErr set.src 0 4),
    chk (!cv || (decide (fld wk 0 4 < 15) && decide (fld wk 4 4 < 15) &&
      decide ((fld wg 0 6 + 1) * (fld wg 6 6 + 1) ≤ ext.1))) (shapeErr a 1 11)]

/-- Issues a pass. -/
def State.arrPass (s : State) (x : Issue) (h : Shape) (kind : ArrKind) (c a e : Nat) (ws wg wk : Reg) : State :=
  s.arrayOp x h (fun k => k.passChk x kind c a e (k.getW ws) (k.getW wg) (k.getW wk)) (fun k =>
    let ext := psoExtent x (k.drain.plate a)
    let q := k.drain.plate e
    let k1 := k.launch { kind := kind, part := fld (k.getW ws) 12 2, p0 := c, p1 := a, p2 := e, rows := ext.1, slots := ext.2,
                         ws := k.getW ws, wg := k.getW wg, wk := k.getW wk }
    k1.reuse x (some (a, ext.1, ext.2)) (if kind = .mmax then some (e, q.nrows, q.nslots) else none))

/-- The shape of a pass: plates, then `n` w operands, the first of them the control word `ws`. -/
def shPass (plates : List Reg) (n : Nat) (ws : Reg) : Shape :=
  { shP (plates.length + n) with psoOk := true, before := some (fun k => k.roomFor (fld (k.getW ws) 12 2)), bad := firstBad (plates.zipIdx.map (fun p => plBad p.1 p.2)) }

/-- MMA. -/
def execMma (x : Issue) (p a r : Reg) (s : State) : Out :=
  .next (s.arrPass x (shPass [p, a] 1 r) .mma p.toNat a.toNat a.toNat r 0#5 0#5)
/-- MMAX. -/
def execMmax (x : Issue) (p a e r : Reg) (s : State) : Out :=
  .next (s.arrPass x (shPass [p, a, e] 1 r) .mmax p.toNat a.toNat e.toNat r 0#5 0#5)
/-- MMACV. -/
def execMmacv (x : Issue) (p a r g w : Reg) (s : State) : Out :=
  .next (s.arrPass x (shPass [p, a] 3 r) .mmacv p.toNat a.toNat a.toNat r g w)

/-! ## Array state (R206) -/

/-- A set with VALID cleared. -/
def ASet.invalidate (a : ASet) : ASet := { a with info := setBitAt a.info 23 false }

/-- Invalidates the sets of the partitions that a test names. -/
def Core.invalidateSets (k : Core) (f : Nat → Bool) : Core :=
  ((List.range 4).filter f).foldl (fun k p =>
    (k.setAset (fgSel p) (k.aset (fgSel p)).invalidate).setAset (bgSel p) (k.aset (bgSel p)).invalidate) k

/-- The RW fields of ARR_STATUS; PART 3 is reserved. -/
def arrMap : RegMap := [fRW 0 2 0 0 2, fRW 15 5, fRW 20 5, fRW 25 1]

/-- ARSET: a change of PART invalidates every set (R196). -/
def Core.arset (k : Core) (v : Word) : Core :=
  let new := arrMap.writeVal false k.arr v
  let k1 := { k with arr := new }
  if fld new 0 2 = k.part then k1 else k1.invalidateSets (fun _ => true)

/-- ARGET: ARR_STATUS or a set register, after every earlier array instruction. -/
def execArget (x : Issue) (d : Reg) (sel : Byte) (s : State) : Out :=
  .next (s.issueCore x { shP 2 with bad := need (decide (sel.toNat ≤ 8)) 1 } (fun k =>
    k.setW d (if sel = 0#8 then k.arrStatus else (k.aset sel.toNat).info)))
/-- ARSET. -/
def execArset (x : Issue) (r : Reg) (s : State) : Out := .next (s.issueCore x (shP 1) (fun k => k.arset (k.getW r)))
/-- ARINV. -/
def execArinv (x : Issue) (mask : Byte) (s : State) : Out :=
  .next (s.issueCore x { shP 1 with bad := need (decide (mask.toNat < 16)) 0 } (fun k => k.invalidateSets (fun p => bitAt mask p)))

/-! ## Completion of work in flight -/

/-- STATIONARY_LOAD_COMPLETE: the oldest work of a core completes when it is a load (R192). -/
def execStationaryLoadComplete (c : Nat) (s : State) : Out :=
  .next (s.modCore c (fun k =>
    match k.arrQ with
    | o :: _ => (match o.kind with | .ld | .ldx | .ldsp => k.arrStep | _ => k)
    | [] => k))

/-- PASS_COMPLETE: the oldest work of a core completes when it is a pass (R204). -/
def execPassComplete (c : Nat) (s : State) : Out :=
  .next (s.modCore c (fun k =>
    match k.arrQ with
    | o :: _ => (match o.kind with | .mma | .mmax | .mmacv => k.arrStep | _ => k)
    | [] => k))

end Sys2Proof.Machine
end

