-- ==== Sys2Proof/Machine/Branch.lean ====
section
/-!
DEFINITION. Branches that use no stack (R90, R92, R93).
-/
namespace Sys2Proof.Machine

/-- A branch: to the target when the condition holds, otherwise to the next instruction. -/
def State.branch (s : State) (x : Issue) (h : Shape) (taken : Core → Bool) (target : Core → Pair) : State :=
  s.issue x h (fun s => if taken (s.core x.core) then .jump s (target (s.core x.core)) else .next s)

/-- B (R90). -/
def execB (x : Issue) (i : Imm) (s : State) : Out :=
  .next (s.branch x (shImm 0 i) (fun _ => true) (fun k => k.after (shImm 0 i) x + immAddr i))
/-- The shape of BC: a condition byte above 14 is reserved (R92). -/
def shBc (cond : Byte) (i : Imm) : Shape := { shImm 1 i with bad := need (decide (cond.toNat < 15)) 0 }
/-- BC (R92). -/
def execBc (x : Issue) (cond : Byte) (i : Imm) (s : State) : Out :=
  .next (s.branch x (shBc cond i) (fun k => condHolds k cond.toNat) (fun k => k.after (shBc cond i) x + immAddr i))
/-- BR (R93). -/
def execBr (x : Issue) (a : AReg) (s : State) : Out :=
  .next (s.branch x (shOps 1) (fun _ => true) (fun k => k.getA a))
/-- CBZ (R93). -/
def execCbz (x : Issue) (a : Reg) (i : Imm) (s : State) : Out :=
  .next (s.branch x (shImm 1 i) (fun k => k.getW a = 0#36) (fun k => k.after (shImm 1 i) x + immAddr i))
/-- CBNZ (R93). -/
def execCbnz (x : Issue) (a : Reg) (i : Imm) (s : State) : Out :=
  .next (s.branch x (shImm 1 i) (fun k => k.getW a ≠ 0#36) (fun k => k.after (shImm 1 i) x + immAddr i))

end Sys2Proof.Machine
end

