-- ==== Sys2Proof/Machine/Image.lean ====
section
/-!
DEFINITION. Slots and their memory images (R121, R122).
-/
namespace Sys2Proof.Machine

/-- The format is one of the two FP6 formats, whose rows are one bit stream. -/
def isFp6 (code : Nat) : Bool := code == 7 || code == 8

/-- Bytes of one slot's image; FP6 rows excepted. -/
def slotLen (code : Nat) : Nat := if code = 0 ∨ code = 10 ∨ code = 11 ∨ code = 12 then 8 else 4

/-- Bytes of a row of `n` slots. -/
def imageLen (code n : Nat) : Nat := if isFp6 code then (9 * n + 1) / 2 else slotLen code * n

/-- The image of one slot; FP6 rows excepted. -/
def slotBytes (code : Nat) (w : Word) : List Byte :=
  if code = 0 ∨ code = 11 then wordBytes w
  else if code = 10 ∨ code = 12 then halfBytes (w.extractLsb' 0 18) ++ halfBytes (w.extractLsb' 18 18)
  else bytesOf w.toNat 4

/-- The slot of an image; FP6 rows excepted. -/
def slotOfBytes (code : Nat) (l : List Byte) : Word :=
  if code = 0 ∨ code = 11 then wordOfBytes l
  else if code = 10 ∨ code = 12 then halfOfBytes (l.drop 4) ++ halfOfBytes l
  else BitVec.ofNat 36 (natOfBytes (l.take 4))

/-- The number whose bits are a row of 36-bit slots. -/
def natOfSlots : List Word → Nat
  | [] => 0
  | w :: r => w.toNat + 2 ^ 36 * natOfSlots r

/-- `n` slots of 36 bits each from a number. -/
def slotsOfNat (v : Nat) : Nat → List Word
  | 0 => []
  | n + 1 => word v :: slotsOfNat (v / 2 ^ 36) n

/-- The image of a row of slots. -/
def rowBytes (code : Nat) (l : List Word) : List Byte :=
  if isFp6 code then bytesOf (natOfSlots l) (imageLen code l.length)
  else l.flatMap (slotBytes code)

/-- The `n` slots of a row's image. -/
def rowWords (code n : Nat) (l : List Byte) : List Word :=
  if isFp6 code then slotsOfNat (natOfBytes l % 2 ^ (36 * n)) n
  else (chunks (slotLen code) n l).map (slotOfBytes code)

end Sys2Proof.Machine
end

