-- ==== Sys2Proof/Machine/CeBlock.lean ====
section
/-!
DEFINITION. Reduction blocks: the wire form, the Vernier residue, conversion into and out of blocks, and the addition of two blocks (R331–R337).
-/
namespace Sys2Proof
open Sys2Proof.Machine

/-! ## Fields of a block (R331) -/

/-- EXP. -/
def CBlock.exp (b : CBlock) : Nat := fld b.hdr 0 8
/-- RAISES. -/
def CBlock.raises (b : CBlock) : Nat := fld b.hdr 8 3
/-- CNT. -/
def CBlock.cnt (b : CBlock) : Nat := fld b.hdr 11 14
/-- VERNIER. -/
def CBlock.vernier (b : CBlock) : Nat := fld b.hdr 25 16
/-- NONFIN, RSAT, OVFL, SHORT, CARRIED, BACKUP, RETRY in bits 0–6. -/
def CBlock.flags (b : CBlock) : Nat := fld b.hdr 41 7
/-- The 32 mantissas. -/
def CBlock.ms (b : CBlock) : List Int := (List.range 32).map (fun i => (b.m.getD i 0#24).toInt)

/-- NONFIN of the flags. -/
def flNonfin : Nat := 1
/-- RSAT of the flags. -/
def flRsat : Nat := 2
/-- OVFL of the flags. -/
def flOvfl : Nat := 4
/-- SHORT of the flags. -/
def flShort : Nat := 8
/-- CARRIED of the flags. -/
def flCarried : Nat := 16
/-- BACKUP of the flags. -/
def flBackup : Nat := 32
/-- RETRY of the flags. -/
def flRetry : Nat := 64

/-- The residue of 32 mantissas (R335). -/
def residueOf (m : List Int) : Nat := ((m.zipIdx.map (fun e => (e.2 + 1) * (e.1 % 65521).toNat)).sum) % 65521

/-- A block from its values: RAISES, RSAT and VERNIER follow (R334, R335). -/
def mkBlock (exp0 exp cnt flags : Nat) (m : List Int) : CBlock :=
  let up := exp - exp0
  let fl := if 7 < up then flags ||| flRsat else flags
  { hdr := BitVec.ofNat 64 (exp % 256 + min up 7 * 2 ^ 8 + cnt % 2 ^ 14 * 2 ^ 11 + residueOf m * 2 ^ 25 + fl % 128 * 2 ^ 41)
    m := m.map (fun i => BitVec.ofInt 24 i) }

/-- A block without a contribution. -/
def zeroBlock (exp0 flags : Nat) : CBlock := mkBlock exp0 exp0 0 flags (List.replicate 32 0)

/-- A block with more flags set. -/
def CBlock.mark (b : CBlock) (flags : Nat) : CBlock := { b with hdr := setFld b.hdr 41 7 (b.flags ||| flags) }

/-- The 104 bytes of a block. -/
def CBlock.bytes (b : CBlock) : List Byte := bytesOf b.hdr.toNat 8 ++ (List.range 32).flatMap (fun i => bytesOf (b.m.getD i 0#24).toNat 3)

/-- A block from 104 bytes. -/
def blockOfBytes (l : List Byte) : CBlock :=
  { hdr := BitVec.ofNat 64 (natOfBytes (l.take 8)), m := (chunks 3 32 (l.drop 8)).map (fun c => BitVec.ofNat 24 (natOfBytes c)) }

/-! ## Conversion into blocks (R333) -/

/-- round_ne of a value at a quantum of 2^q. -/
def rneAt (v : FVal) (q : Int) : Int :=
  match v with
  | .fin neg m e => let r := (roundAt 0 0 neg m e q false).1; if neg then -(r : Int) else r
  | _ => 0

/-- round_ne(m × 2^-k). -/
def rneShift (m : Int) (k : Nat) : Int := rneAt (FVal.ofInt m 0) k

/-- A mantissa in range. -/
def mantOk (i : Int) : Bool := decide (-(2 ^ 23) ≤ i) && decide (i ≤ 2 ^ 23 - 1)

/-- The mantissa held to ±(2^23 − 1). -/
def mantSat (i : Int) : Int := if i < -(2 ^ 23 - 1) then -(2 ^ 23 - 1) else if 2 ^ 23 - 1 < i then 2 ^ 23 - 1 else i

/-- Values at exponent `e` added to mantissas that stand at exponent `exp`. -/
def addAt (exp e : Nat) (m : List Int) (x : List FVal) : List Int × List Int :=
  let xs := x.map (fun v => rneAt v ((e : Int) - 150))
  (xs, (m.zip xs).map (fun p => rneShift p.1 (e - exp) + p.2))

/-- The smallest exponent at or above `e` at which values and sums fit, with the sums; at 255 they saturate. -/
def fitExp (exp : Nat) (m : List Int) (x : List FVal) (e : Nat) : Nat → Nat × List Int × Bool
  | 0 => (255, (addAt exp 255 m x).2.map mantSat, true)
  | n + 1 =>
    let (xs, ss) := addAt exp e m x
    if xs.all mantOk && ss.all mantOk then (e, ss, false) else fitExp exp m x (e + 1) n

/-- One part's 32 values added to a contribution in the making: exponent, mantissas, flags. -/
def addPart (c : Nat × List Int × Nat) (x : List FVal) : Nat × List Int × Nat :=
  let bad := x.any (fun v => match v with | .inf _ => true | .nan => true | _ => false)
  let y := x.map (fun v => match v with | .inf _ => .zero false | .nan => .zero false | v => v)
  let (e, m, sat) := fitExp c.1 c.2.1 y c.1 (256 - c.1)
  (e, m, c.2.2 ||| (if bad then flNonfin else 0) ||| (if sat then flOvfl else 0))

/-- The values of a block as a further part. -/
def CBlock.values (b : CBlock) : List FVal := b.ms.map (fun i => FVal.ofInt i ((b.exp : Int) - 150))

/-- The local block of parts' values in taking order (R333). -/
def formBlock (exp0 cnt : Nat) (parts : List (List FVal)) : CBlock :=
  let r := parts.foldl addPart (exp0, List.replicate 32 0, 0)
  mkBlock exp0 r.1 cnt r.2.2 r.2.1

/-- Bytes of 32 elements of a format. -/
def blockBytes (code : Nat) : Nat := imageLen code (32 / (match NumFmt.ofCode code with | some f => f.perSlot | none => 1))

/-- The 32 values of an image. -/
def blockValues (code : Nat) (l : List Byte) : List FVal :=
  match NumFmt.ofCode code with
  | none => []
  | some f => (rowWords code (32 / f.perSlot) l).flatMap (fun w => (List.range f.perSlot).map (fun k => f.decode (f.elem w k)))

/-! ## The addition at a hop (R334) -/

/-- Upstream and local block combined; `more` are flags that this hop sets. -/
def combine (exp0 more : Nat) (u l : CBlock) : CBlock :=
  let e := max u.exp l.exp
  let s := (u.ms.zip l.ms).map (fun p => rneShift p.1 (e - u.exp) + rneShift p.2 (e - l.exp))
  let cnt := u.cnt + l.cnt
  let fl := u.flags ||| l.flags ||| more
  if s.all mantOk then mkBlock exp0 e cnt fl s
  else if e = 255 then mkBlock exp0 255 cnt (fl ||| flOvfl) (s.map mantSat)
  else mkBlock exp0 (e + 1) cnt fl (s.map (fun i => rneShift i 1))

/-! ## Results (R337) -/

/-- The bytes that a block delivers. -/
def CBlock.deliver (b : CBlock) (code rmode : Nat) (avg : Bool) : List Byte :=
  match NumFmt.ofCode code with
  | none => []
  | some f =>
    let c : RCtx := { rmode := rmode, ovmode := 0, draw := 0 }
    let bits := b.ms.map (fun i =>
      if b.cnt = 0 then 0
      else
        let v := FVal.ofInt i ((b.exp : Int) - 150)
        if avg then (f.deliver c (v.div (FVal.ofInt b.cnt 0))).bits else (f.convert c v).bits)
    rowBytes code ((List.range (32 / f.perSlot)).map (fun j => f.pack ((bits.drop (j * f.perSlot)).take f.perSlot)))

end Sys2Proof
end

