-- ==== Sys2Proof/Machine/Crypto.lean ====
section
/-!
DEFINITION. The standard algorithms that the spec names: SHAKE256 (R393, R412, R421) and SHA3-512 (R417) as FIPS 202 defines them, and the verification of Ed448 signatures, pure, with an empty context, as RFC 8032 defines it (R412, R421).
-/
namespace Sys2Proof.Machine

/-- A Keccak lane. -/
abbrev Lane := BitVec 64

/-- Rotation offsets of rho, by lane index 5y + x. -/
def rhoOff : List Nat := [0, 1, 62, 28, 27, 36, 44, 6, 55, 20, 3, 10, 43, 25, 39, 41, 45, 15, 21, 8, 18, 2, 61, 56, 14]

/-- Round constants of iota. -/
def iotaConst : List Lane :=
  [0x0000000000000001#64, 0x0000000000008082#64, 0x800000000000808A#64, 0x8000000080008000#64, 0x000000000000808B#64,
   0x0000000080000001#64, 0x8000000080008081#64, 0x8000000000008009#64, 0x000000000000008A#64, 0x0000000000000088#64,
   0x0000000080008009#64, 0x000000008000000A#64, 0x000000008000808B#64, 0x800000000000008B#64, 0x8000000000008089#64,
   0x8000000000008003#64, 0x8000000000008002#64, 0x8000000000000080#64, 0x000000000000800A#64, 0x800000008000000A#64,
   0x8000000080008081#64, 0x8000000000008080#64, 0x0000000080000001#64, 0x8000000080008008#64]

/-- Lane (x, y) of a state of 25 lanes. -/
def lane25 (a : List Lane) (x y : Nat) : Lane := a.getD (5 * (y % 5) + x % 5) 0#64

/-- The 25 lanes of a function of (x, y). -/
def lanes25 (f : Nat → Nat → Lane) : List Lane := (List.range 25).map (fun i => f (i % 5) (i / 5))

/-- One round of Keccak-f[1600]. -/
def keccakRound (a : List Lane) (rc : Lane) : List Lane :=
  let c := (List.range 5).map (fun x => (List.range 5).foldl (fun v y => v ^^^ lane25 a x y) 0#64)
  let d := (List.range 5).map (fun x => c.getD ((x + 4) % 5) 0#64 ^^^ (c.getD ((x + 1) % 5) 0#64).rotateLeft 1)
  let t := lanes25 (fun x y => lane25 a x y ^^^ d.getD x 0#64)
  -- rho and pi: lane (x, y) of the result comes from lane (x + 3y, x)
  let b := lanes25 (fun x y => (lane25 t (x + 3 * y) x).rotateLeft (rhoOff.getD (5 * x + (x + 3 * y) % 5) 0))
  let k := lanes25 (fun x y => lane25 b x y ^^^ (~~~ lane25 b (x + 1) y &&& lane25 b (x + 2) y))
  match k with
  | [] => []
  | h :: r => (h ^^^ rc) :: r

/-- Keccak-f[1600]. -/
def keccakF (a : List Lane) : List Lane := iotaConst.foldl keccakRound a

/-- Exclusive or of a block into the state. -/
def absorb (a : List Lane) (block : List Byte) : List Lane :=
  let ls := (chunks 8 (block.length / 8) block).map (fun l => BitVec.ofNat 64 (natOfBytes l))
  keccakF ((List.range 25).map (fun i => a.getD i 0#64 ^^^ ls.getD i 0#64))

/-- The message with its suffix and padding, for blocks of `rate` bytes. -/
def spongePad (rate : Nat) (suffix : Byte) (m : List Byte) : List Byte :=
  let z := (rate - (m.length + 1) % rate) % rate
  let l := m ++ [suffix] ++ List.replicate z 0#8
  l.take (l.length - 1) ++ [l.getLastD 0#8 ||| 0x80#8]

/-- A sponge over Keccak-f[1600] with an output of at most one block. -/
def sponge (rate : Nat) (suffix : Byte) (m : List Byte) (out : Nat) : List Byte :=
  let p := spongePad rate suffix m
  let a := (chunks rate (p.length / rate) p).foldl absorb (List.replicate 25 0#64)
  (a.flatMap (fun l => bytesOf l.toNat 8)).take out

/-- SHAKE256 with an output of at most one block. -/
def shake256 (m : List Byte) (out : Nat) : List Byte := sponge 136 0x1F#8 m out

/-- SHA3-512. -/
def sha3x512 (m : List Byte) : List Byte := sponge 72 0x06#8 m 64

/-- Eight words of 32 digest bits each, first bits first (R391). -/
def digestWords (l : List Byte) : List Word := (chunks 4 8 l).map (fun b => word (natOfBytes b))

/-! ## Ed448 (RFC 8032) -/

/-- The field prime. -/
def edP : Nat := 2 ^ 448 - 2 ^ 224 - 1
/-- The order of the base point. -/
def edL : Nat := 2 ^ 446 - 13818066809895115352007386748515426880336692474882178609894547503885

/-- Power modulo the field prime, over the low `n` bits of the exponent. -/
def edPow (x e : Nat) : Nat → Nat
  | 0 => 1
  | n + 1 => let h := edPow (x * x % edP) (e / 2) n; if e % 2 = 1 then h * x % edP else h

/-- Difference modulo the field prime. -/
def edSub (a b : Nat) : Nat := (a + (edP - b % edP)) % edP
/-- The curve's coefficient, −39081. -/
def edD : Nat := edP - 39081

/-- A point in projective coordinates. -/
structure EdPt where
  x : Nat
  y : Nat
  z : Nat
  deriving DecidableEq, Repr

/-- The neutral point. -/
def edZero : EdPt := ⟨0, 1, 1⟩
/-- The base point. -/
def edBase : EdPt :=
  ⟨224580040295924300187604334099896036246789641632564134246125461686950415467406032909029192869357953282578032075146446173674602635247710,
   298819210078481492676017930443930673437544040154080242095928241372331506189835876003536878655418784733982303233503462500531545062832660, 1⟩

/-- Sum of two points. -/
def edAdd (p q : EdPt) : EdPt :=
  let a := p.z * q.z % edP
  let b := a * a % edP
  let c := p.x * q.x % edP
  let d := p.y * q.y % edP
  let e := edD * c % edP * d % edP
  let f := edSub b e
  let g := (b + e) % edP
  let h := (p.x + p.y) * (q.x + q.y) % edP
  ⟨a * f % edP * edSub (edSub h c) d % edP, a * g % edP * edSub d c % edP, f * g % edP⟩

/-- A multiple of a point, over the low `n` bits of the factor. -/
def edMul (p : EdPt) (k : Nat) : Nat → EdPt
  | 0 => edZero
  | n + 1 => let h := edMul (edAdd p p) (k / 2) n; if k % 2 = 1 then edAdd h p else h

/-- Equality of points. -/
def edEq (p q : EdPt) : Bool := p.x * q.z % edP == q.x * p.z % edP && p.y * q.z % edP == q.y * p.z % edP

/-- The point that 57 bytes encode, when they encode one. -/
def edDecode (l : List Byte) : Option EdPt :=
  let v := natOfBytes l
  let y := v % 2 ^ 455
  if l.length ≠ 57 ∨ edP ≤ y then none
  else
    let u := edSub (y * y % edP) 1
    let w := edSub (edD * (y * y % edP) % edP) 1
    let u3w := u * u % edP * u % edP * w % edP
    let t := u3w * (u * u % edP) % edP * (w * w % edP) % edP
    let x := u3w * edPow t ((edP - 3) / 4) 446 % edP
    if w * (x * x % edP) % edP ≠ u then none
    else if x = 0 ∧ v / 2 ^ 455 = 1 then none
    else some ⟨if x % 2 = v / 2 ^ 455 then x else edP - x, y, 1⟩

/-- Whether an Ed448 signature of 114 bytes verifies for a message under a public key of 57 bytes (PRESUMED, log 47). -/
def ed448Verify (key msg sig : List Byte) : Bool :=
  match edDecode key, edDecode (sig.take 57) with
  | some a, some r =>
    let s := natOfBytes (sig.drop 57)
    let dom := [0x53#8, 0x69#8, 0x67#8, 0x45#8, 0x64#8, 0x34#8, 0x34#8, 0x38#8, 0#8, 0#8]
    let k := natOfBytes (shake256 (dom ++ sig.take 57 ++ key ++ msg) 114) % edL
    sig.length == 114 && decide (s < edL) &&
      edEq (edMul (edMul edBase s 446) 4 3) (edMul (edAdd r (edMul a k 446)) 4 3)
  | _, _ => false

end Sys2Proof.Machine
end

