-- ==== Sys2Proof/Machine/MemSys.lean ====
section
/-!
DEFINITION. The memory system's own events (R227–R253): admission of requests, detection failures, tensor cache maintenance, GDDR7 reports, CXL expanders, core mailboxes.
-/
namespace Sys2Proof.Machine

/-! ## Request slots (R243–R245) -/

/-- Channel × 16 + bank of a GDDR7 address (R238). -/
def bankOf (pa : Nat) : Nat := pa / 2 ^ 6 % 4 * 16 + (pa / 2 ^ 12 % 16 ^^^ pa / 2 ^ 24 % 16)

/-- Window offset of a register of the controller of GDDR7 device `g`. -/
def memCtrlOff (g r : Nat) : Nat := dieOff (g / 4) + 0x1000 + g % 4 * 0x20 + r

/-- Admitted requests at GDDR7 device `g`. -/
def State.slotsOf (s : State) (g : Nat) : List MemReq :=
  s.memReqs.filter (fun r => r.admitted && s.region r.pa == .gddr && s.gddrDevice r.pa == g)

/-- Slots that a bank of device `g` holds. -/
def State.bankSlots (s : State) (g b : Nat) : Nat := ((s.slotsOf g).filter (fun r => bankOf r.pa == b)).length

/-- Slots of the CXL pool in use. -/
def State.cxlUsed (s : State) : Nat := (s.memReqs.filter (fun r => r.admitted && s.region r.pa == .cxl)).length

/-- A request finds a free slot; one to a local store needs none (R227, R243). -/
def State.slotFree (s : State) (pa : Nat) : Bool :=
  match s.region pa with
  | .gddr => decide ((s.slotsOf (s.gddrDevice pa)).length < 3584)
  | .cxl => decide (s.cxlUsed < s.cxlSlots)
  | .ls _ _ => true
  | _ => false

/-- The request's bank is below BANK_CAP. -/
def State.bankRoom (s : State) (pa : Nat) : Bool :=
  match s.region pa with
  | .gddr => decide (s.bankSlots (s.gddrDevice pa) (bankOf pa) < s.ctlFld (memCtrlOff (s.gddrDevice pa) 0) 0 12)
  | _ => true

/-- A request can be admitted now. -/
def State.canAdmit (s : State) (pa : Nat) : Bool := s.slotFree pa && s.bankRoom pa

/-- Limit of outstanding requests of an agent (R244, R268, R349). -/
def agentLimit (a : Nat) : Option Nat :=
  if a < 192 then some 256 else if a < 448 then some (dmaOutmax (dmaKind (a - 192))) else if a = 448 then some 4096 else none

/-- The agent is present on this device. -/
def State.agentPresent (s : State) (a : Nat) : Bool :=
  s.hasCore a || (decide (192 ≤ a) && decide (a < 448) && dmaPresent s.variant (a - 192)) || (decide (448 ≤ a) && decide (a ≤ 450))

/-- An agent's outstanding requests. -/
def State.outstanding (s : State) (a : Nat) : List MemReq := s.memReqs.filter (fun r => r.agent == a)

/-- A request of the agent to the same line waits before it (R244 keeps program order). -/
def earlierWaits (l : List MemReq) (q : MemReq) : Bool :=
  (l.takeWhile (fun r => r != q)).any (fun r => r.agent == q.agent && r.pa / 64 == q.pa / 64 && !r.admitted)

/-- Marks the first waiting request equal to `q` as admitted. -/
def admitIn (q : MemReq) : List MemReq → List MemReq
  | [] => []
  | r :: l => if r = q then { r with admitted := true } :: l else r :: admitIn q l

/-- The arbiter of the GDDR7 channel of a physical address (R254, R238). -/
def State.chanArb (s : State) (pa : Nat) : Nat := 4 * s.gddrDevice pa + pa / 64 % 4

/-- A waiting request as the head of its tensor cache bank's input (R254, R257). -/
def MemReq.head (r : MemReq) (freedBank : Option Nat) : ArbReq :=
  { input := r.bank, agent := if r.agent < 450 then some r.agent else none, pa := r.pa, freed := freedBank == some (bankOf r.pa) }

/-- Admits a waiting request when a slot and bank room are free; to GDDR7, by a grant of the channel's arbiter, which it reaches alone (R255, R258). -/
def State.tryAdmit (s : State) (q : MemReq) : State :=
  if s.canAdmit q.pa && !earlierWaits s.memReqs q then
    let t : State := { s with memReqs := admitIn q s.memReqs }
    if s.region q.pa = .gddr then (t.arbDecide (s.chanArb q.pa) [q.head none]).2 else t
  else s

/-- A request arrives or is tried again: it waits until it can be admitted; a first refusal because of BANK_CAP is counted (R244) (DESIGN CHOICE, log 32). -/
def State.requestAdmit (s : State) (agent pa : Nat) (write : Bool) (bank : Nat) (acc : MemAcc) : State :=
  let q : MemReq := { agent := agent, pa := pa, write := write, bank := bank, admitted := false, acc := acc }
  if s.agentPresent agent = false then s
  else if s.memReqs.contains q then s.tryAdmit q
  else
    let gone := match s.region pa with | .gddr => false | .ls _ _ => false | .cxl => (s.cellKey pa).isNone | _ => true
    let full := match agentLimit agent with | some n => decide (n ≤ (s.outstanding agent).length) | none => false
    if gone || full then s
    else
      let s1 : State := { s with memReqs := s.memReqs ++ [q] }
      let s2 := if s1.slotFree pa && !s1.bankRoom pa then s1.ctlCount (memCtrlOff (s1.gddrDevice pa) 0x10) 0 36 else s1
      s2.tryAdmit q

/-- REQUEST_ADMIT: the agent, address and kind of the request; `by_` is the tensor cache bank that makes it and the access behind it. -/
def execRequestAdmit (agent pa : Nat) (write : Bool) (by_ : Nat × MemAcc) (s : State) : Out :=
  .next (s.requestAdmit agent pa write (by_.1 % 48) by_.2)

/-- The oldest waiting request of each tensor cache bank for a channel of device `g` that can be admitted, as head requests of its arbiter. -/
def State.waitingHeads (s : State) (g chan : Nat) (freedBank : Option Nat) : List (ArbReq × MemReq) :=
  (List.range 48).filterMap (fun b =>
    (s.memReqs.find? (fun r => !r.admitted && r.bank == b && s.region r.pa == .gddr && s.gddrDevice r.pa == g &&
      decide (r.pa / 64 % 4 = chan) && s.canAdmit r.pa && !earlierWaits s.memReqs r)).map (fun r => (r.head freedBank, r)))

/-- One cycle of a channel's arbiter over waiting requests: the granted one is admitted. -/
def State.admitChan (s : State) (arb : Nat) (hs : List (ArbReq × MemReq)) : State :=
  let (w, t) := s.arbDecide arb (hs.map Prod.fst)
  match w.bind (fun w => hs.find? (fun h => h.1.input == w.input)) with
  | some (_, q) => { t with memReqs := admitIn q t.memReqs }
  | none => t

/-- Waiting requests of a controller are admitted while a slot and bank room are free: those of the freed bank first, its channel before the others (R244, R259) (DESIGN CHOICE, log 32). -/
def State.admitGddr (s : State) (g chan : Nat) (freedBank : Option Nat) : Nat → State
  | 0 => s
  | n + 1 =>
    let order := chan :: (List.range 4).filter (fun h => h != chan)
    match order.find? (fun h => !(s.waitingHeads g h freedBank).isEmpty) with
    | none => s
    | some h => (s.admitChan (4 * g + h) (s.waitingHeads g h freedBank)).admitGddr g chan freedBank n

/-- Waiting requests to the CXL tier are admitted, oldest first, while the pool has a free slot. -/
def State.admitCxl (s : State) : Nat → State
  | 0 => s
  | n + 1 =>
    match s.memReqs.find? (fun r => !r.admitted && s.region r.pa == .cxl && !earlierWaits s.memReqs r) with
    | some q => if s.canAdmit q.pa then (s.tryAdmit q).admitCxl n else s
    | none => s

/-- A slot is freed: waiting requests are admitted (R244). -/
def State.admitNext (s : State) (pa : Nat) : State :=
  match s.region pa with
  | .gddr => s.admitGddr (s.gddrDevice pa) (pa / 64 % 4) (some (bankOf pa)) s.memReqs.length
  | .cxl => s.admitCxl s.memReqs.length
  | _ => s

/-- The waiting request of a memory channel that a head request names. -/
def State.headReq (s : State) (i : Nat) (h : ArbReq) : Option MemReq :=
  s.memReqs.find? (fun r => !r.admitted && r.bank == h.input && r.pa == h.pa && s.region r.pa == .gddr && s.chanArb r.pa == i &&
    (decide (450 ≤ r.agent) || h.agent == some r.agent) && !earlierWaits s.memReqs r)

/-- The heads that contest a cycle of arbiter `i`: those that may stand there, and at a memory channel those of waiting requests that can be admitted (R243, R258). -/
def State.contest (s : State) (i : Nat) (heads : List ArbReq) : List ArbReq :=
  ((heads.filter (s.arbHeadOk i)).map (headAt i)).filter (fun h => decide (64 ≤ i) || ((s.headReq i h).isSome && s.canAdmit h.pa))

/-- Contents of MEM_STAT of device `g`: slots in use, the most occupied bank (the lowest on a tie), its occupancy. -/
def State.memStat (s : State) (g : Nat) : Word :=
  let best := (List.range 64).foldl (fun (m : Nat × Nat) b => let n := s.bankSlots g b; if m.2 < n then (b, n) else m) (0, 0)
  word ((s.slotsOf g).length + best.1 * 2 ^ 12 + best.2 * 2 ^ 18)

/-! ## Detection failures (R227, R228, R240) -/

/-- Marks the line of a physical address poisoned at its home; no cache keeps a copy (R240). -/
def State.poisonLine (s : State) (pa : Nat) : State :=
  match s.cellKey pa with
  | some k => { s.tcLeaveAll (pa / 64) with poison := Tbl.set false s.poison (k / 64) true }
  | none => s

/-- Some L1 cache of a die holds a line. -/
def State.l1Holds (s : State) (die line : Nat) : Bool :=
  (s.l1d ++ s.l1i).any (fun e => e.1 / 48 == die && e.2.contains line)

/-- A modified line of a tensor cache fails: its home line is poisoned, the failure is logged with SRC 2, and Alidade is notified (R240, R241). -/
def State.tcLost (s : State) (die pa : Nat) : State :=
  (((s.poisonLine pa).memErrLog die pa 2 1).logAdd 0x0008 die (pa % 2 ^ 44 + 2 * 2 ^ 44)).ephFault 0 0 (some pa)

/-- What the device does on a detection result for an access of a die to a line, and the SRC of the error the requester sees (R240). -/
def State.detect (s : State) (die pa : Nat) (d : Detect) : Option Nat × State :=
  let known (s : State) : Option Nat × State := match s.readErr pa 1 with
    | some src => (some src, s.memFail src pa)
    | none => (none, s)
  match d, s.region pa with
  | .lsParity, .ls _ _ => (some 0, { s with lsBad := Tbl.set false s.lsBad (pa / 8) true })
  | .l1Refetch, _ => if s.l1Holds die (pa / 64) then (none, s.memErrLog die pa 1 2) else known s
  | .tcClean, .gddr | .tcClean, .cxl => known ((s.tcLeave die (pa / 64)).memErrLog die pa 2 2)
  | .tcModified, .gddr | .tcModified, .cxl => (some 2, s.tcLost die pa)
  | .tcEvict, .gddr | .tcEvict, .cxl => (none, s.tcLost die pa)
  | .transient, .gddr => match s.readErr pa 1 with
    | some _ => known s
    | none => (none, s.memErrLog (s.homeDie pa) pa 3 0)
  | .failed, .gddr => (some 3, (s.poisonLine pa).memFail 3 pa)
  | .cxlPoison, .cxl => (some 4, (s.poisonLine pa).memFail 4 pa)
  | _, _ => known s

/-- The data of a completed request is in a die's tensor cache: the fill, by the class of the access behind the request, unless the line is there already (R231, R233, R234). -/
def State.fillLine (s : State) (die pa : Nat) (desc : Option Nat) (page : Option PageAttr) (write : Bool) : State :=
  if (s.tcFind die (pa / 64)).isSome then s else s.agentTouch die pa desc page write

/-- The die whose tensor cache serves an agent (R231). -/
def State.agentDie (s : State) (a pa : Nat) : Nat :=
  if a < 192 then a / 48 else if a < 320 then (a - 192) / 32 else s.homeDie pa

/-! ## Tensor cache maintenance (R236) -/

/-- The range of a die's maintenance operation holds a line. -/
def State.tcOpHolds (s : State) (die line : Nat) : Bool :=
  let base := s.ctlFld (dieOff die + 0x10) 0 28 * 1024
  decide (base ≤ line) && decide (line < base + s.ctlFld (dieOff die + 0x18) 0 28 * 1024)

/-- A write of TC_OP: ignored when it sets GO while BUSY; otherwise its fields are written, and GO starts the operation. -/
def State.tcOpWrite (s : State) (die : Nat) (v : Word) : State :=
  let o := dieOff die + 8
  if bitAt v 2 && bitAt (s.ctlGet o) 3 then s
  else
    let w := (ctlMap s.variant o).writeVal false (s.ctlGet o) v
    s.ctlSet o (if bitAt v 2 then setBitAt w 3 true else w)

/-- One line after the operation: downgrade, write back, or gone (DESIGN CHOICE, log 31). -/
def tcOpLine (op : Nat) (t : TcLine) : Option TcLine :=
  if op = 0 then some (if t.cls = 7 then { t with cls := 1, remain := horizonOf 1 } else t)
  else if op = 1 then some { t with modified := false }
  else none

/-- TC_OP_DONE: the running operation has passed every line of its range; modified lines that fail as they are written back are poisoned at home, and the L1 copies of lines that leave go (R229, R236, R240). -/
def execTcOpDone (die : Nat) (bad : List Nat) (s : State) : Out :=
  let o := dieOff die + 8
  if s.variant.dies ≤ die ∨ bitAt (s.ctlGet o) 3 = false then .next s
  else
    let op := s.ctlFld o 0 2
    let fails := if op = 0 then [] else
      (Tbl.get [] s.tcLines die).filter (fun t => s.tcOpHolds die t.line && t.modified && bad.contains t.line)
    let s1 := fails.foldl (fun t l => (t.detect die (l.line * 64) .tcEvict).2) s
    let s2 : State := { s1 with tcLines := Tbl.modify [] s1.tcLines die (fun l =>
      l.filterMap (fun t => if s.tcOpHolds die t.line then tcOpLine op t else some t)) }
    let gone := if op ≤ 1 then [] else (Tbl.get [] s1.tcLines die).filter (fun t => s.tcOpHolds die t.line)
    let s3 := gone.foldl (fun t l => t.l1Purge die l.line none) s2
    .next ((s3.ctlPut o 3 1 0).ctlPut o 4 1 1)

/-! ## GDDR7 and CXL (R237, R242) -/

/-- GDDR7_REFRESH: the refresh window of a controller ends, and on-die error reports are read and logged with KIND 3. -/
def execGddr7Refresh (g : Nat) (reports : List Nat) (s : State) : Out :=
  if s.variant.gddrs ≤ g then .next s
  else .next ((reports.filter (fun pa => s.region pa == .gddr && s.gddrDevice pa == g)).foldl
    (fun t pa => t.memErrLog (g / 4) pa 3 3) s)

/-- CXL_EXPANDER_DOWN. -/
def execCxlExpanderDown (port : Nat) (s : State) : Out :=
  if s.variant.cxlPorts ≤ port then .next s else .next { s with cxlDown := Tbl.set false s.cxlDown port true }

/-! ## Core mailboxes (R251, R252) -/

/-- Window offset of a register of mailbox `k` of core `n`. -/
def cmbxOff (n k r : Nat) : Nat := 0x220000 + n * 0x100 + k * 0x20 + r

/-- A write of CMBX_POST. -/
def State.cmbxPost (s : State) (n k : Nat) (v : Word) : State :=
  if s.hasCore n = false then s
  else if s.isRetired n then s.logAdd 0x000B n (0x12 + 2 ^ 8 + k * 2 ^ 11)
  else
    let c := s.ctlGet (cmbxOff n k 8)
    if bitAt c 0 then s.ctlSet (cmbxOff n k 8) (setBitAt c 1 true)
    else
      let s1 := (s.ctlSet (cmbxOff n k 0) v).ctlSet (cmbxOff n k 8) (setBitAt c 0 true)
      if bitAt c 2 then s1.signal n 1 k (fld c 3 1) else s1

end Sys2Proof.Machine
end

