-- ==== Sys2Proof/Machine/Link.lean ====
section
/-!
DEFINITION. The link layer and the router (R47–R51, R289–R304): the schedule in force, coordinates and ports, flits, credits, routes, and what each port sends next.
-/
namespace Sys2Proof.Machine

/-! ## The schedule in force (R47) -/

/-- The latest of some ticks that have come; 0 is none, else the tick + 1. -/
def lastDue (now : Nat) (l : List Nat) : Nat := l.foldl (fun m t => if t ≤ now then max m (t + 1) else m) 0

/-- The schedule in force at this tick and its start tick: starts and stops whose ticks have come are in force, at one tick a stop before a start (R47, R424). -/
def State.schedNow (s : State) : Option (Nat × Nat) :=
  let a := lastDue s.now (s.sched.pendStart.map Prod.snd)
  let z := lastDue s.now s.sched.pendStop
  if a = 0 ∧ z = 0 then s.sched.active
  else if z ≤ a then s.sched.pendStart.find? (fun p => p.2 + 1 == a)
  else none

/-- A schedule. -/
def State.schedOf (s : State) (i : Nat) : Sched := Tbl.get {} s.sched.sched i

/-- Length of a schedule. -/
def State.schedLen (s : State) (i : Nat) : Nat := (s.schedOf i).len

/-- The schedule frame index of this tick; none while no schedule is active. -/
def State.frameIndex (s : State) : Option Nat := s.schedNow.map (fun p => (s.now - p.2) % s.schedLen p.1)

/-! ## Shape and coordinates (R289–R291) -/

/-- Length of an axis for its FAB_SHAPE code; an unused axis counts as 1. -/
def axisLen (shape a : Nat) : Nat :=
  match shape / 4 ^ a % 4 with | 0 => 1 | 1 => 4 | 2 => 8 | _ => 16
/-- Axis `a` is used. -/
def axisUsed (shape a : Nat) : Bool := shape / 4 ^ a % 4 != 0
/-- A coordinate of a FAB_COORD value. -/
def coordOf (coord a : Nat) : Nat := coord / 16 ^ a % 16

/-- A shape that R289 permits on this device. -/
def shapeOk (v : Variant) (shape : Nat) : Bool :=
  let prod := (List.range 5).foldl (fun p a => p * axisLen shape a) 1
  match v with
  | .m9440 => decide (prod ≤ 16384)
  | .m9220 => decide (prod ≤ 4096) && !axisUsed shape 3 && !axisUsed shape 4

/-- Every coordinate is below its axis length. -/
def coordOk (shape coord : Nat) : Bool := (List.range 5).all (fun a => decide (coordOf coord a < axisLen shape a))

/-- The device id of coordinates (R290). -/
def idOf (shape coord : Nat) : Nat := (List.range 5).reverse.foldl (fun i a => coordOf coord a + axisLen shape a * i) 0

/-- Coordinates of an id, packed as FAB_COORD. -/
def coordsOf (shape id : Nat) : Nat :=
  ((List.range 5).foldl (fun (acc : Nat × Nat) a => (acc.1 + acc.2 % axisLen shape a * 16 ^ a, acc.2 / axisLen shape a)) (0, id)).1

/-- Coordinates one step away through a port. -/
def stepCoord (shape coord p : Nat) : Nat :=
  let a := p / 2
  let l := axisLen shape a
  let c := coordOf coord a
  let n := if p % 2 = 0 then (c + 1) % l else (c + l - 1) % l
  coord - c * 16 ^ a + n * 16 ^ a

/-- FAB_SHAPE. -/
def State.shape (s : State) : Nat := s.ctlFld 0x200018 0 10
/-- FAB_COORD. -/
def State.coord (s : State) : Nat := s.ctlFld 0x200020 0 20
/-- Port `p` is present and its axis used. -/
def State.portUsed (s : State) (p : Nat) : Bool := decide (p < s.variant.ports) && axisUsed s.shape (p / 2)
/-- Used ports. -/
def State.usedPorts (s : State) : List Nat := (List.range 10).filter s.portUsed
/-- Id of the neighbour that R291 puts at a port. -/
def State.nbrId (s : State) (p : Nat) : Nat := idOf s.shape (stepCoord s.shape s.coord p)

/-! ## Port registers -/

/-- Window offset of a register of port `p`. -/
def portOff (p r : Nat) : Nat := 0x200200 + p * 0x40 + r
/-- What a port holds besides its registers. -/
def State.portX (s : State) (p : Nat) : FabPortX := Tbl.get {} s.fabPorts p
/-- Changes what a port holds. -/
def State.modPortX (s : State) (p : Nat) (f : FabPortX → FabPortX) : State := { s with fabPorts := Tbl.modify {} s.fabPorts p f }
/-- FAB_PORT_STATUS.STATE: 0 DOWN, 1 TRAINING, 2 UP, 3 RETRAINING, 4 FAILED. -/
def State.portState (s : State) (p : Nat) : Nat := s.ctlFld (portOff p 8) 0 3
/-- The port is UP. -/
def State.portUp (s : State) (p : Nat) : Bool := s.portState p == 2
/-- Ports that are UP. -/
def State.upPorts (s : State) : List Nat := s.usedPorts.filter s.portUp

/-! ## Flow registers -/

/-- Window offset of a register of flow context `f`. -/
def flowOff (f r : Nat) : Nat := 0x300000 + f * 0x40 + r
/-- Number of flow contexts (R69 gives the block 1 MiB). -/
def nflows : Nat := 16384

/-- What a flow context holds besides its registers. -/
def State.flowX (s : State) (f : Nat) : FlowX := Tbl.get {} s.flows f
/-- Changes what a flow context holds. -/
def State.modFlowX (s : State) (f : Nat) (g : FlowX → FlowX) : State := { s with flows := Tbl.modify {} s.flows f g }
/-- FC_STATE.STATE: 0 FREE, 1 LISTEN, 2 OPENING, 3 BACKOFF, 4 OPEN, 5 CLOSING, 6 BROKEN. -/
def State.flowState (s : State) (f : Nat) : Nat := s.ctlFld (flowOff f 0) 0 3
/-- FC_STATE.KIND. -/
def State.flowKind (s : State) (f : Nat) : Nat := s.ctlFld (flowOff f 0) 3 2
/-- FC_PARTNER.PDEV. -/
def State.flowDev (s : State) (f : Nat) : Nat := s.ctlFld (flowOff f 8) 0 14
/-- FC_PARTNER.PFLOW. -/
def State.flowPeer (s : State) (f : Nat) : Nat := s.ctlFld (flowOff f 8) 14 14
/-- FC_OUTST.OUTSTANDING. -/
def State.flowOut (s : State) (f : Nat) : Nat := s.ctlFld (flowOff f 0x18) 0 13
/-- FAB_STATE.STATE: 0 ABSENT, 1 TRAINING, 2 QUIET, 3 ADMITTED, 4 DRAINING, 5 OUT_OF_SERVICE. -/
def State.fabState (s : State) : Nat := s.ctlFld 0x200008 0 3
/-- FAB_ID.DEVICE_ID. -/
def State.fabId (s : State) : Nat := s.ctlFld 0x200010 0 14

/-- The device takes part in the fabric: it is ADMITTED or DRAINING. -/
def State.inFabric (s : State) : Bool := s.fabState == 3 || s.fabState == 4

/-- Every port is held idle (R309, R313). -/
def State.portsIdle (s : State) : Bool := s.fab.idleAt.any (fun t => decide (t ≤ s.now))

/-! ## Routing (R300–R303) -/

/-- Port `p` is routable now: FAB_ROUTE.ACTIVE. -/
def State.routable (s : State) (p : Nat) : Bool := bitAt (s.ctlGet 0x200050) p

/-- The port towards `d` on axis `a` from `c`, the shorter way round; the up port on a tie. -/
def axisPort (shape c d a : Nat) : Nat :=
  let l := axisLen shape a
  let up := (coordOf d a + l - coordOf c a) % l
  if up ≤ l - up then 2 * a else 2 * a + 1

/-- The lowest axis on which two coordinates differ. -/
def firstAxis (c d : Nat) : Option Nat := (List.range 5).find? (fun a => coordOf c a != coordOf d a)

/-- The detour axis of axis `a`: the lowest used axis above it, or the lowest used axis (R302). -/
def detourAxis (shape a : Nat) : Nat :=
  (((List.range 5).find? (fun b => axisUsed shape b && decide (a < b))).or ((List.range 5).find? (axisUsed shape))).getD a

/-- The axis that a packet travels next: a detoured packet finishes the axis that it left, then follows dimension order, whose first axis is the hop back where the detour axis lies below (R300, R302). -/
def nextAxis (c d : Nat) (detour : Option Nat) : Option Nat :=
  match detour with
  | some a => if coordOf c a != coordOf d a then some a else firstAxis c d
  | none => firstAxis c d

/-- The virtual channel on a hop: past the dateline on this axis or not, detoured or not (R298, R300). -/
def hopVc (shape c p : Nat) (detoured : Bool) (arrive : Option (Nat × Nat)) : Nat :=
  let l := axisLen shape (p / 2)
  let cross := if p % 2 = 0 then coordOf c (p / 2) + 1 = l else coordOf c (p / 2) = 0
  let past := arrive.any (fun q => q.1 / 2 == p / 2 && (q.2 == 2 || q.2 == 4))
  (if detoured then 3 else 1) + (if cross ∨ past = true then 1 else 0)

/-- The hop of a packet to a destination: port, virtual channel, and the axis that its detour left; none when it is undeliverable (R300, R302, R303). -/
def State.routeOf (s : State) (dest : Nat) (detour : Option Nat) (arrive : Option (Nat × Nat)) : Option (Nat × Nat × Option Nat) :=
  let c := s.coord
  match nextAxis c (coordsOf s.shape dest) detour with
  | none => none
  | some a =>
    let p := axisPort s.shape c (coordsOf s.shape dest) a
    if s.routable p then some (p, hopVc s.shape c p detour.isSome arrive, detour)
    else if detour.isSome || s.nbrId p == dest then none
    else
      let b := detourAxis s.shape a
      if s.routable (2 * b) then some (2 * b, hopVc s.shape c (2 * b) true none, some a)
      else if s.routable (2 * b + 1) then some (2 * b + 1, hopVc s.shape c (2 * b + 1) true none, some a)
      else none

/-! ## Flits (R293) -/

/-- Flits of a packet. -/
def flitsOf (k : Packet) : Nat := ceilDiv (16 + k.len) 244

/-- The 16 bytes of a packet header. -/
def packetBytes (k : Packet) : List Byte :=
  bytesOf (k.dest % 2 ^ 14 + k.src % 2 ^ 14 * 2 ^ 14 + k.dflow % 2 ^ 14 * 2 ^ 28 + k.sflow % 2 ^ 14 * 2 ^ 42 + k.pseq % 2 ^ 16 * 2 ^ 56 +
    k.typ % 2 ^ 8 * 2 ^ 72 + k.len % 2 ^ 13 * 2 ^ 80) 16

/-- The packet header at the start of a SOP payload. -/
def packetOfBytes (l : List Byte) : Packet :=
  let v := natOfBytes (l.take 16)
  { dest := v % 2 ^ 14, src := v / 2 ^ 14 % 2 ^ 14, dflow := v / 2 ^ 28 % 2 ^ 14, sflow := v / 2 ^ 42 % 2 ^ 14, pseq := v / 2 ^ 56 % 2 ^ 16
    typ := v / 2 ^ 72 % 2 ^ 8, len := v / 2 ^ 80 % 2 ^ 13 }

/-- CHECK over the first 252 bytes of a flit. -/
def flitCheck (l : List Byte) : List Byte := bytesOf (~~~ (crc32c 0xFFFFFFFF#32 l)).toNat 4

/-- The first 252 bytes of a flit. -/
def flitCovered (f : Flit) : List Byte :=
  bytesOf (f.seq % 4096 + (f.ack.getD 0) % 4096 * 2 ^ 12 + flag f.ack.isSome 24 + f.vc % 8 * 2 ^ 25 + flag f.sop 28 + flag f.eop 29 + flag f.idle 30) 8 ++
    (f.payload ++ List.replicate 244 0#8).take 244

/-- The 256 bytes of a flit on the wire. -/
def flitBytes (f : Flit) : List Byte := flitCovered f ++ flitCheck (flitCovered f)

/-- The fields that 252 bytes hold; reserved bits are ignored. -/
def flitOfBytes (l : List Byte) : Flit :=
  let v := natOfBytes (l.take 8)
  { seq := v % 4096, ack := if v / 2 ^ 24 % 2 = 1 then some (v / 2 ^ 12 % 4096) else none, vc := v / 2 ^ 25 % 8
    sop := v / 2 ^ 28 % 2 = 1, eop := v / 2 ^ 29 % 2 = 1, idle := v / 2 ^ 30 % 2 = 1, payload := (l.drop 8).take 244 }

/-- A flit as received; none when its CHECK fails. -/
def flitRead (l : List Byte) : Option Flit :=
  if flitCheck (l.take 252) = (l.drop 252).take 4 then some (flitOfBytes l) else none

/-- The flits of a packet from a SEQ on. -/
def packetFlits (e : OutPkt) (seq : Nat) (ack : Option Nat) : List Flit :=
  let n := flitsOf e.packet
  (chunks 244 n (packetBytes e.packet ++ e.body)).zipIdx.map (fun c =>
    { seq := (seq + c.2) % 4096, ack := ack, vc := e.vc, sop := c.2 == 0, eop := c.2 + 1 == n, payload := c.1 })

/-! ## Transmit slots at a port (R50, R51, R304) -/

/-- The transmit slot table of a port that is executed now: that of the active schedule, in fabric-locked mode (R36). -/
def State.slotTable (s : State) (p : Nat) : List (BitVec 64) :=
  if s.ctlFld 0x08 0 2 = 2 then (match s.schedNow with | some (n, _) => Tbl.get [] (s.schedOf n).slots p | none => []) else []

/-- The table of port `p` names a flow: it sends there, in its slots (R51, R304). -/
def State.slotted (s : State) (p f : Nat) : Bool := (s.slotTable p).any (fun e => fld e 32 14 == f)

/-- The port whose slots a flow has. -/
def State.slotPort (s : State) (f : Nat) : Option Nat := (List.range 10).find? (fun p => s.slotted p f)

/-- The flow whose slot runs on a port. -/
def State.slotRuns (s : State) (p : Nat) : Option Nat :=
  match Tbl.get 0 s.sched.slotFlow p with | 0 => none | f + 1 => some f

/-- A packet of this device's flow `f`. -/
def OutPkt.ofFlow (e : OutPkt) (f : Nat) : Bool := e.arrive.isNone && decide (e.packet.typ < 6) && e.packet.sflow == f

/-- The packet goes out in slots of this port. -/
def State.inSlots (s : State) (p : Nat) (e : OutPkt) : Bool :=
  e.kind.isSome || (e.arrive.isNone && decide (e.packet.typ < 6) && s.slotted p e.packet.sflow)

/-- The running slot of a port takes a packet: its flow's, of its KIND. -/
def State.slotTakes (s : State) (p f : Nat) (e : OutPkt) : Bool :=
  e.ofFlow f && e.kind.all (fun k => k == Tbl.get 0 s.sched.slotKind p)

/-- The running slot is lent: YIELD, and its flow has nothing to send there (R50). -/
def State.slotLends (s : State) (p f : Nat) : Bool :=
  Tbl.get false s.sched.slotYield p && !(s.portX p).queue.any (s.slotTakes p f)

/-- A transmit slot holds the router output and does not lend its units (R256, R50). -/
def State.slotHeld (s : State) (i : Nat) : Bool :=
  decide (454 ≤ i) && decide (i < 464) && (s.slotRuns (i - 454)).any (fun f => !s.slotLends (i - 454) f)

/-! ## Credits (R298) -/

/-- Packets that the device holds for reordering (R318). -/
def State.poolUsed (s : State) : Nat := (s.flows.map (fun e => e.2.held.length)).sum

/-- VC1–VC4 credits of a port are returned: it is routable, the device takes part in the fabric, and the reorder pool has room (R298, R311, R318). -/
def State.creditsOpen (s : State) (p : Nat) : Bool := s.routable p && s.inFabric && decide (s.poolUsed < 2048)

/-- Credits of a virtual channel that a port can return now. -/
def State.returnable (s : State) (p v : Nat) : Nat := if v = 0 ∨ s.creditsOpen p = true then Tbl.get 0 (s.portX p).owed v else 0

/-- Buffers of a port's virtual channel that packets of the device occupy: those that wait, and the one that is arriving. -/
def State.occupied (s : State) (p v : Nat) : Nat :=
  ((s.fabPorts.map (fun e => ((e.2.queue.filter (fun k => k.arrive == some (p, v))).map (fun k => flitsOf k.packet)).sum)).sum) +
    (Tbl.get [] (s.portX p).partials v).length / 244

/-- Buffers that a packet has freed at the port it came in on. -/
def FabPortX.owe (x : FabPortX) (v n : Nat) : FabPortX := { x with owed := Tbl.modify 0 x.owed v (· + n) }

/-- The buffers of a packet that has left the device, or was discarded. -/
def State.freeBuffers (s : State) (e : OutPkt) : State :=
  match e.arrive with
  | some (q, v) => s.modPortX q (fun x => x.owe v (flitsOf e.packet))
  | none => s

/-! ## Sending (R296, R298, R299) -/

/-- VC1–VC4 can be sent at all: the device is locked and takes part in the fabric, or left it less than a tick ago (R36, R309, R313). -/
def State.dataOpen (s : State) : Bool := bitAt (s.ctlGet 0x08) 2 && (s.inFabric || s.fab.idleAt.any (fun t => decide (s.now < t)))

/-- TYPEs that go no further than the neighbour. -/
def linkLocal (t : Nat) : Bool := (decide (0x10 ≤ t) && decide (t ≤ 0x16)) || t == 0x1D
/-- Link-critical control: TICK_SYNC, BEACON, FLOOD, CREDIT, NAK (R299). -/
def linkCritical (t : Nat) : Bool := t == 0x12 || t == 0x13 || t == 0x14 || t == 0x15 || t == 0x16

/-- Packets of one lane leave in order: an input's packets of one virtual channel, link-critical ones apart, and the packets of each flow with slots. -/
def State.pktLane (s : State) (p : Nat) (e : OutPkt) : Nat × Nat × Bool × Nat :=
  (e.input, e.vc, linkCritical e.packet.typ, if s.inSlots p e then e.packet.sflow + 1 else 0)

/-- The first packet of each lane. -/
def State.laneHeads (s : State) (p : Nat) : List OutPkt :=
  ((s.portX p).queue.foldl (fun (acc : List (Nat × Nat × Bool × Nat) × List OutPkt) e =>
    if acc.1.contains (s.pktLane p e) then acc else (s.pktLane p e :: acc.1, acc.2 ++ [e])) ([], [])).2

/-- A packet can be sent: the port is UP and not idle, a credit for each flit, room in the replay window, and for data a routable port. -/
def State.canGo (s : State) (p : Nat) (e : OutPkt) : Bool :=
  let x := s.portX p
  let n := flitsOf e.packet
  s.portUp p && !s.portsIdle && decide (n ≤ Tbl.get 0 x.credit e.vc) && decide (x.replay.length + n ≤ 2048) && (e.vc == 0 || (s.dataOpen && s.routable p))

/-- The router output's decision among packets, one head an input (R256, R258). -/
def State.routerPick (s : State) (p : Nat) (l : List OutPkt) : Option OutPkt × State :=
  let hs := (List.range 13).filterMap (fun i => l.find? (fun e => e.input == i))
  let (w, t) := s.arbDecide (454 + p) (hs.map (fun e => { input := e.input, agent := e.agent, control := e.vc == 0 }))
  (w.bind (fun w => hs.find? (fun e => e.input == w.input)), t)

/-- What a port sends next (R299): inside a slot its flow's packets, with a link-critical flit after every 64 data flits or where the flow has none to send; in other units, and in lent ones, control before best effort, each by R258. -/
def State.pickOut (s : State) (p : Nat) : Option OutPkt × State :=
  let go := (s.laneHeads p).filter (s.canGo p)
  let free := go.filter (fun e => !s.inSlots p e)
  match s.slotRuns p with
  | none => s.routerPick p free
  | some f =>
    if s.slotLends p f then s.routerPick p free
    else
      let own := go.find? (s.slotTakes p f)
      let crit := go.find? (fun e => linkCritical e.packet.typ)
      if own.isNone ∨ 64 ≤ (s.portX p).slotRun then (crit.or own, s) else (own, s)

/-- Takes the first packet equal to `e` out of a queue. -/
def dropFirst (e : OutPkt) : List OutPkt → List OutPkt
  | [] => []
  | k :: r => if k = e then r else k :: dropFirst e r

/-- Sends the flits of a packet on a port: SEQ, ACK, replay copies; `paid` takes a credit for each. -/
def State.sendFlits (s : State) (p : Nat) (e : OutPkt) (paid : Bool) : State :=
  let x := s.portX p
  let fs := packetFlits e x.txSeq x.lastRx
  let s1 := s.modPortX p (fun x => { x with
    credit := if paid then Tbl.modify 0 x.credit e.vc (· - fs.length) else x.credit
    txSeq := (x.txSeq + fs.length) % 4096, replay := x.replay ++ fs.map (fun f => (f, e.detour)), ackDue := false
    slotRun := if e.vc = 0 ∨ s.slotRuns p = none then 0 else x.slotRun + fs.length })
  fs.foldl (fun t f => t.emit (.flit p f e.detour)) s1

/-- Sends a packet that waits on a port. -/
def State.sendOut (s : State) (p : Nat) (e : OutPkt) : State :=
  ((s.modPortX p (fun x => { x with queue := dropFirst e x.queue })).sendFlits p e true).freeBuffers e

/-- Sends what a port can send now; `n` bounds the number of packets. -/
def State.pumpPort (s : State) (p : Nat) : Nat → State
  | 0 => s
  | n + 1 =>
    match s.pickOut p with
    | (none, _) => s
    | (some e, t) => (t.sendOut p e).pumpPort p n

/-- A control packet to the neighbour on a port; bodies are fields of 8 bytes (DESIGN CHOICE, log 37). -/
def State.linkPkt (s : State) (p typ : Nat) (fields : List Nat) : OutPkt :=
  let body := fields.flatMap (fun v => bytesOf v 8)
  { vc := 0, packet := { dest := s.nbrId p, src := s.fabId, dflow := 0, sflow := 0, pseq := 0, typ := typ, len := body.length }, body := body }

/-- Returns the credits that a port owes: at once where anything but CREDIT flits has freed buffers, the first CREDIT after UP against no credit (R298) (DESIGN CHOICE, log 37). -/
def State.creditOut (s : State) (p : Nat) : State :=
  let x := s.portX p
  let l := (List.range 5).map (s.returnable p)
  let due := (l.drop 1).any (fun n => n != 0) || decide (x.quietOwed < l.getD 0 0)
  let room := x.creditSent == false || (decide (1 ≤ Tbl.get 0 x.credit 0) && decide (x.replay.length < 2048))
  let waits := (s.slotRuns p).any (fun f => !s.slotLends p f && decide (x.slotRun < 64) && (s.laneHeads p).any (fun e => s.slotTakes p f e && s.canGo p e))
  if s.portUp p = false ∨ s.portsIdle = true ∨ due = false ∨ room = false ∨ waits = true then s
  else
    let s1 := s.modPortX p (fun x => { x with
      owed := (l.zipIdx).foldl (fun t e => Tbl.modify 0 t e.2 (· - e.1)) x.owed, quietOwed := 0, creditSent := true })
    ((s1.emit (.control p 0x12 l)).sendFlits p (s1.linkPkt p 0x12 l) x.creditSent)

/-- Every port sends what it can, then returns its credits. -/
def State.linksGo (s : State) : State :=
  let s1 := (List.range 10).foldl (fun t p => if (t.portX p).queue.isEmpty then t else t.pumpPort p (t.portX p).queue.length) s
  (List.range 10).foldl (fun t p => if (t.portX p).owed.isEmpty then t else t.creditOut p) s1

/-- Queues a packet at an output, which sends what it can. -/
def State.enqueue (s : State) (p : Nat) (e : OutPkt) : State :=
  (s.modPortX p (fun x => { x with queue := x.queue ++ [e] })).linksGo

/-- Sends a link-local control packet on a port that is UP. -/
def State.controlOut (s : State) (p typ : Nat) (fields : List Nat) : State :=
  if s.portUp p = false ∨ s.portsIdle = true then s
  else (s.emit (.control p typ fields)).enqueue p (s.linkPkt p typ fields)

/-! ## Packets that are routed (R300–R303) -/

/-- Sends a packet towards its destination: port, virtual channel, detour; false when it is undeliverable. Control packets stay on VC0 until they detour (DEDUCED, log 37). -/
def State.tryRoute (s : State) (e : OutPkt) : Bool × State :=
  match s.routeOf e.packet.dest e.detour e.arrive with
  | some (p, v, d) => (true, s.enqueue p { e with vc := if 0x10 ≤ e.packet.typ ∧ v < 3 then 0 else v, detour := d })
  | none => (false, s)

/-- A packet of this device to another: recorded, and sent on the port of its flow's slots or on its route; false when it is undeliverable. -/
def State.launch (s : State) (e : OutPkt) : Bool × State :=
  let k := e.packet
  let s1 := s.emit (.packet k.typ k.dest k.dflow k.sflow k.pseq e.body)
  if s1.portsIdle ∨ k.dest = s1.fabId then (true, s1)
  else
    match (if k.typ < 6 then s1.slotPort k.sflow else none) with
    | some p => (true, s1.enqueue p { e with vc := hopVc s1.shape s1.coord p false none })
    | none => s1.tryRoute e

/-- A control packet of this device to a flow of another; one that is undeliverable is lost. -/
def State.controlTo (s : State) (typ dest dflow sflow pseq : Nat) (body : List Byte) : State :=
  (s.launch { vc := 0, body := body, packet := { dest := dest, src := s.fabId, dflow := dflow, sflow := sflow, pseq := pseq, typ := typ, len := body.length } }).2

/-- Routes a packet that waits in the device. An undeliverable one is discarded: one in transit returns UNREACHABLE to its source, except an UNREACHABLE itself; of this device's own data the flow is named (R303) (DESIGN CHOICE, log 37). -/
def State.routeOn (s : State) (e : OutPkt) : Option Nat × State :=
  match s.tryRoute e with
  | (true, t) => (none, t)
  | (false, t) =>
    let k := e.packet
    let t1 := t.freeBuffers e
    if e.arrive.isNone then (if k.typ < 6 then some k.sflow else none, t1)
    else if k.typ = 0x1C then (none, t1)
    else (none, (t1.controlTo 0x1C k.src k.sflow k.dflow 0 (bytesOf k.pseq 2)).linksGo)

/-- Takes the packets of a flow that wait at the ports out of their queues. -/
def State.dropQueued (s : State) (f : Nat) : State :=
  { s with fabPorts := (s.fabPorts.map (fun e => (e.1, { e.2 with queue := e.2.queue.filter (fun k => !k.ofFlow f) }))).filter (fun e => e.2 != {}) }

/-- ARBITRATION_DECISION: the request that a memory channel grants takes its slot. -/
def execArbitrationDecision (i : Nat) (heads : List ArbReq) (s : State) : Out :=
  if arbPresent s.variant i = false ∨ s.slotHeld i = true then .next s
  else
    let (w, t) := s.arbDecide i (s.contest i heads)
    .next (match (if i < 64 then w.bind (s.headReq i) else none) with
      | some q => { t with memReqs := admitIn q t.memReqs }
      | none => t)

end Sys2Proof.Machine
end

