-- ==== Sys2Proof/Machine/Flow.lean ====
section
/-!
DEFINITION. Flow contexts and the remote access path (R247, R248, R316–R320): sending, failing and breaking.
-/
namespace Sys2Proof.Machine

/-! ## Flow contexts -/

/-- Cause 0x22 of a context with EVT = 1 (R320). -/
def State.flowEvent (s : State) (f : Nat) : State :=
  let w := s.ctlGet (flowOff f 0)
  let e := s.ctlGet 0x200078
  if bitAt w 18 && bitAt e 8 then s.event (fld e 0 8) 0x22 (word (f + fld w 0 3 * 2 ^ 14 + fld w 6 4 * 2 ^ 17)) else s

/-- Enters a state; OPEN, BROKEN, and FREE from OPEN raise the context's event (R316). -/
def State.flowEnter (s : State) (f st reason : Nat) : State :=
  let old := s.flowState f
  let s1 := (s.ctlPut (flowOff f 0) 0 3 st).ctlPut (flowOff f 0) 6 4 reason
  if (st = 4 ∧ old ≠ 4) ∨ (st = 6 ∧ old ≠ 6) ∨ (st = 0 ∧ old = 4) then s1.flowEvent f else s1

/-- A control packet of a flow to its partner. -/
def State.flowControl (s : State) (f typ : Nat) (fields : List Nat) : State :=
  s.controlTo typ (s.flowDev f) (s.flowPeer f) f 0 (fields.flatMap (fun v => bytesOf v 8))

/-- The head of a remote request's body: LOCAL, level, operation and size. -/
def reqHead (lvl a op size : Nat) : List Byte := bytesOf (a + lvl * 2 ^ 44 + op * 2 ^ 46 + size * 2 ^ 48) 8

/-! ## Remote accesses (R247, R248, R319) -/

/-- The entry of the binding table for a device: the cached one, or the word in memory, which must be readable (R319). -/
def State.bindEntry (s : State) (dev : Nat) : Option Word :=
  match s.fab.bindCache.find? (fun e => e.1 == dev) with
  | some e => some e.2
  | none =>
    let pa := s.ctlFld 0x200058 0 27 * 2 ^ 17 + dev * 8
    match s.region pa with
    | .gddr | .cxl => if (s.readErr pa 8).isSome then none else some (s.wordAt pa)
    | _ => none

/-- The flow that the binding table names for a device, when an access can use it (R319). -/
def State.bindFlow (s : State) (dev : Nat) : Option Nat :=
  if bitAt (s.ctlGet 0x200058) 27 = false then none
  else match s.bindEntry dev with
    | none => none
    | some e =>
      let f := fld e 0 14
      let st := s.flowState f
      if bitAt e 14 && s.flowKind f == 0 && st != 0 && st != 1 && st != 5 then some f else none

/-- The entry that an access used stays in the cache of 256 entries (R319) (DESIGN CHOICE, log 10). -/
def State.bindFill (s : State) (dev : Nat) : State :=
  let l := s.fab.bindCache
  if bitAt (s.ctlGet 0x200058) 27 = false ∨ l.any (fun e => e.1 == dev) = true then s
  else match s.bindEntry dev with
    | none => s
    | some e => { s with fab := { s.fab with bindCache := (if l.length < 256 then l else l.eraseIdx (Config.bindVictim dev % 256)) ++ [(dev, e)] } }

/-- Flow contexts that are not at their reset value. -/
def State.activeFlows (s : State) : List Nat :=
  (s.ctl.filter (fun e => decide (0x300000 ≤ e.1) && decide (e.1 < 0x400000) && e.1 % 64 == 0)).map (fun e => (e.1 - 0x300000) / 64)

/-- Slots of the remote pool in use (R243). -/
def State.remoteUsed (s : State) : Nat := (s.remote.filter (fun r => r.pseq.isSome)).length

/-- A request of a flow can be sent now. -/
def State.canSend (s : State) (f : Nat) : Bool :=
  s.flowState f == 4 && s.fabState == 3 && decide (s.flowOut f < s.ctlFld (flowOff f 0x18) 13 13) &&
  decide (s.remoteUsed < s.variant.hubSlots - s.cxlSlots)

/-- Marks the first unsent request equal to `q` as sent. -/
def markSent (q : RemReq) (p : Nat) : List RemReq → List RemReq
  | [] => []
  | r :: l => if r = q then { r with pseq := some p } :: l else r :: markSent q p l

/-- DKIND and DREG of a destination (R222). -/
def RemDest.code : RemDest → Nat
  | .w d _ => d.toNat * 4
  | .a d => 1 + d.toNat * 4
  | .vec d _ _ _ => 2 + d.toNat * 4
  | _ => 3

/-- A remote access ends without its effect: precise, or as a deferred report (R75, R223); the instruction retires with the last of its requests (R215). -/
def State.remoteFailAt (s : State) (r : RemReq) (e : XErr) (fa : Pair) : State :=
  let s1 : State := { s with remote := s.remote.erase r }
  let need : Need := if r.access = 1 then .write else .read
  let k := s1.core r.core
  match e with
  | .page _ _ => s1.enter r.core (k.exc 0x06 (e.info need 0 + 128#36) fa)
  | _ =>
    if r.precise then s1.enter r.core (k.exc (e.cause need) (e.info need (2 * r.dest.code)) fa)
    else
      let rep : Report := { cause := e.cause need, info := e.info need (1 + r.dest.code * 2), fa := fa, level := r.level }
      let s2 := s1.setCore r.core { k with pReports := k.pReports ++ [rep] }
      if s1.remoteWait r.core then s2 else s2.retire r.core k r.next

/-- A remote access that fails as a whole. -/
def State.remoteFail (s : State) (r : RemReq) (e : XErr) : State := s.remoteFailAt r e r.addr

/-- Every unsent or unanswered request of a flow fails with bus error REASON 4. -/
def State.flowFailAll (s : State) (f : Nat) : State :=
  let s1 := (s.remote.filter (fun r => r.flow == f)).foldl (fun t r => t.remoteFail r (.bus 4)) s
  s1.ctlPut (flowOff f 0x18) 0 13 0

/-- A flow becomes BROKEN (R318): the partner is told, requests fail, held packets are dropped. -/
def State.flowFail (s : State) (f reason : Nat) (tell : Bool) : State :=
  let st := s.flowState f
  if st = 4 ∨ st = 5 then
    let s1 := (s.dropQueued f).flowEnter f 6 reason
    let s2 := if tell then s1.flowControl f 0x1B [reason] else s1
    ((s2.modFlowX f (fun x => { x with held := [] })).ctlPut (flowOff f 0x18) 26 10 0).flowFailAll f
  else s

/-- Sends a packet of a flow under its next PSEQ, from an input of the router for an agent, in slots of a KIND where it must (R324); one that is undeliverable breaks the flow (R303, R318). -/
def State.flowSend (s : State) (f typ : Nat) (body : List Byte) (input : Nat) (agent : Option Nat) (kind : Option Nat := none) : Nat × State :=
  let p := s.ctlFld (flowOff f 0x10) 0 16
  let s1 := (s.ctlPut (flowOff f 0x10) 0 16 ((p + 1) % 65536)).ctlCount (flowOff f 0x30) 0 18
  let k : Packet := { dest := s.flowDev f, src := s.fabId, dflow := s.flowPeer f, sflow := f, pseq := p, typ := typ, len := body.length }
  match s1.launch { vc := 1, packet := k, body := body, input := input, agent := agent, kind := kind } with
  | (true, t) => (p, t)
  | (false, t) => (p, t.flowFail f 4 true)

/-- Sends the requests of a flow that wait, oldest first, as long as it takes them. -/
def State.flowPump (s : State) (f : Nat) : Nat → State
  | 0 => s
  | n + 1 =>
    match s.remote.find? (fun r => r.flow == f && r.pseq.isNone) with
    | none => s
    | some q =>
      if s.canSend f = false then s
      else
        let (_, s1) := ({ s with remote := markSent q (s.ctlFld (flowOff f 0x10) 0 16) s.remote } : State).ctlPut (flowOff f 0x18) 0 13 (s.flowOut f + 1)
          |>.flowSend f q.typ q.body 12 (some q.core)
        s1.flowPump f n

/-- Sends what can be sent on a flow. -/
def State.pump (s : State) (f : Nat) : State := s.flowPump f s.remote.length

/-- A slot of the remote pool is free: waiting requests of every flow may go (R243). -/
def State.pumpAll (s : State) : State := (s.remote.filter (fun r => r.pseq.isNone)).foldl (fun t r => t.pump r.flow) s

/-- A flow becomes BROKEN, and requests that wait for a slot of the remote pool may go. -/
def State.flowBreak (s : State) (f reason : Nat) (tell : Bool) : State := (s.flowFail f reason tell).pumpAll

/-- Routes a packet that waits in the device; where it is this device's own and undeliverable, its flow breaks (R303). -/
def State.reroute (s : State) (e : OutPkt) : State :=
  match s.routeOn e with
  | (none, t) => t
  | (some f, t) => t.flowBreak f 4 true

/-- The request of a flow that was sent under a PSEQ. -/
def State.sentReq (s : State) (f p : Nat) : Option RemReq := s.remote.find? (fun r => r.flow == f && r.pseq == some p)

/-- One request of a flow is answered or given up: OUTSTANDING falls and waiting requests may go. -/
def State.flowAnswered (s : State) (f : Nat) : State :=
  (s.ctlPut (flowOff f 0x18) 0 13 (s.flowOut f - 1)).pumpAll

/-- A core starts a remote access; it fails with REASON 4 where R319 or R313 says so, and otherwise is sent or waits for its flow (DESIGN CHOICE, log 10). -/
def State.remoteStart (s : State) (r : RemReq) : State :=
  let t := s.bindFill (deviceOf r.addr)
  let fail (r : RemReq) : State := ({ t with remote := r :: t.remote } : State).remoteFail r (.bus 4)
  match s.bindFlow (deviceOf r.addr) with
  | none => fail r
  | some f =>
    let q := { r with flow := f }
    if s.flowState f = 6 ∨ s.fabState = 4 then fail q
    else ({ t with remote := t.remote ++ [q] } : State).pump f

/-- REMOTE_TIMEOUT_EXPIRY: the core's remote access was not answered in time (R248). -/
def execRemoteTimeoutExpiry (c : Nat) (s : State) : Out :=
  match s.remote.find? (fun r => r.core == c) with
  | none => .next s
  | some r =>
    let s1 := s.remoteFail r (.bus 4)
    .next (if r.pseq.isSome then s1.flowAnswered r.flow else s1)

end Sys2Proof.Machine
end

