-- ==== Sys2Proof/Machine/Dma.lean ====
section
/-!
DEFINITION. DMA channels: their registers, the control writes of R282, descriptors as read, and the completion record (R268–R288). The operations themselves stand in DmaRun.
-/
namespace Sys2Proof.Machine

/-! ## Registers -/

/-- Window offset of a register of channel `q`. -/
def dmaOff (q r : Nat) : Nat := 0x100000 + q * 0x1000 + r

/-- What channel `q` holds besides its registers. -/
def State.dmaX (s : State) (q : Nat) : DmaX := Tbl.get {} s.dma q
/-- Writes what channel `q` holds. -/
def State.setDmaX (s : State) (q : Nat) (x : DmaX) : State := { s with dma := Tbl.set {} s.dma q x }
/-- Changes what channel `q` holds. -/
def State.modDmaX (s : State) (q : Nat) (f : DmaX → DmaX) : State := s.setDmaX q (f (s.dmaX q))

/-- DMA_STATUS.STATE: 0 STOPPED, 1 IDLE, 2 RUNNING, 3 WAITING, 4 HALTED. -/
def State.dmaState (s : State) (q : Nat) : Nat := s.ctlFld (dmaOff q 0x18) 0 3
/-- Writes DMA_STATUS.STATE. -/
def State.setDmaState (s : State) (q v : Nat) : State := s.ctlPut (dmaOff q 0x18) 0 3 v
/-- DMA_CFG.LEVEL. -/
def State.dmaLevel (s : State) (q : Nat) : Nat := s.ctlFld (dmaOff q 0) 0 2
/-- A pair of registers, low word first, with the low bits below `k` zero. -/
def State.dmaPair (s : State) (q r k : Nat) : Pair :=
  let p := mkPair (s.ctlGet (dmaOff q (r + 8))) (s.ctlGet (dmaOff q r))
  setFld p 0 k 0
/-- Descriptors in the ring. -/
def State.dmaRing (s : State) (q : Nat) : Nat := 2 ^ s.ctlFld (dmaOff q 0) 15 4
/-- Records in the queue. -/
def State.dmaQueue (s : State) (q : Nat) : Nat := 2 ^ s.ctlFld (dmaOff q 0) 19 4
/-- HEAD, within the ring. -/
def State.dmaHead (s : State) (q : Nat) : Nat := s.ctlFld (dmaOff q 0x30) 0 16 % s.dmaRing q
/-- Address of the descriptor at HEAD. -/
def State.dmaHeadAddr (s : State) (q : Nat) : Pair := s.dmaPair q 0x20 6 + BitVec.ofNat 72 (64 * s.dmaHead q)
/-- HEAD moves past the descriptor. -/
def State.dmaAdvance (s : State) (q : Nat) : State := s.ctlPut (dmaOff q 0x30) 0 16 ((s.dmaHead q + 1) % s.dmaRing q)

/-! ## Accesses at a level (R269, R273) -/

/-- A physical address for a local access of `n` bytes at a level; control windows and remote addresses are no memory. -/
def State.plainAt (s : State) (lvl : Nat) (need : Need) (a : Pair) (n : Nat) : Except XErr Nat :=
  if badTop a then .error (.bus 0)
  else if !s.onDevice a then .error (.bus 4)
  else
    match s.place lvl need a n with
    | .error e => .error e
    | .ok (pa, _) =>
      match s.region pa with
      | .ctl _ => .error (.bus 3)
      | _ =>
        match (if need = .read then s.readErr pa n else s.writeErr pa n) with
        | some src => .error (.mem src pa)
        | none => .ok pa

/-- A physical address for a local access of `n` bytes of a channel. -/
def State.dmaPlain (s : State) (q : Nat) (need : Need) (a : Pair) (n : Nat) : Except XErr Nat :=
  s.plainAt (s.dmaLevel q) need a n

/-- A write of a register is denied at a level: T everywhere but SEM_COUNT, CMBX_POST, and the doorbell and CQ_HEAD of a channel of LEVEL 2; K in the tick unit and in the registers of R321 (R32, R250, R252, R287, R321, R351); at the register of an absent unit too, before R8's ignored write (DESIGN CHOICE, log 15). -/
def State.ctlDenied (s : State) (lvl o : Nat) : Bool :=
  let tick := decide (o < 0x10000)
  let fabM := decide (0x200000 ≤ o) && decide (o < 0x200500) &&
    (o == 0x200000 || o == 0x200018 || o == 0x200020 || o == 0x200028 || o == 0x200030 || (decide (0x200200 ≤ o) && (o - 0x200200) % 0x40 == 0))
  if lvl = 0 then false
  else if lvl = 1 then tick || fabM
  else
    let sem := decide (0x10000 ≤ o) && decide (o < 0x20000) && o % 16 == 0
    let post := decide (0x220000 ≤ o) && decide (o < 0x230000) && o % 0x20 == 0x10
    let dma := decide (0x100000 ≤ o) && decide (o < 0x200000) && (o % 0x1000 == 0x10 || o % 0x1000 == 0x50) && s.dmaLevel ((o - 0x100000) / 0x1000) == 2
    !(sem || post || dma)

/-- A read of a register is denied at a level: T reads a present channel's block only when its LEVEL is 2 (R287, R8) (DEDUCED, log 15). -/
def State.ctlReadDenied (s : State) (lvl o : Nat) : Bool :=
  lvl == 2 && decide (0x100000 ≤ o) && decide (o < 0x200000) && dmaPresent s.variant ((o - 0x100000) / 0x1000) && s.dmaLevel ((o - 0x100000) / 0x1000) != 2

/-- A write by the access codes of the register's fields (R13). -/
def State.ctlPlain (s : State) (o : Nat) (v : Word) : State :=
  s.ctlSet o ((ctlMap s.variant o).writeVal (bitAt (s.ctlGet (if o < 0x10000 then 0x00 else 0x200000)) 35) (s.ctlGet o) v)

/-- A physical address and page for a local access of at most 64 bytes within a line. -/
def State.dmaSlot (s : State) (q : Nat) (need : Need) (a : Pair) (n : Nat) : Except XErr (Nat × Option PageAttr) :=
  if badTop a then .error (.bus 0)
  else if !s.onDevice a then .error (.bus 4)
  else
    match s.place (s.dmaLevel q) need a n with
    | .error e => .error e
    | .ok (pa, h) =>
      match s.region pa with
      | .ctl o =>
        if (if need = .read then s.ctlReadDenied (s.dmaLevel q) o else s.ctlDenied (s.dmaLevel q) o) then .error (.bus 3) else .ok (pa, h)
      | _ =>
        match (if need = .read then s.readErr pa n else s.writeErr pa n) with
        | some src => .error (.mem src pa)
        | none => .ok (pa, h)

/-- The failure that another device answered: the address in the request's ranges and the error. -/
def remErr (l : List (Pair × Nat)) : RemRes → Option (Pair × XErr)
  | .data _ => none
  | .refused p => some ((l.getD p (0#72, 0)).1, .bus 4)
  | .pageFault p lv r => some ((l.getD p (0#72, 0)).1, .page lv r)
  | .memErr p off => some ((l.getD p (0#72, 0)).1 + BitVec.ofNat 72 off, .mem 5 0)

/-- An address that is not on this device. -/
def State.farAway (s : State) (a : Pair) : Bool := !badTop a && !s.onDevice a

/-- The flow of a channel's traffic to a device: an open bulk flow to it, or the one that the binding table names; none while the device drains, or where no access can use it (R80, R313, R319, R354). -/
def State.dmaFlow (s : State) (dev : Nat) : Option Nat :=
  if s.fabState = 4 then none
  else (s.activeFlows.find? (fun f => s.flowState f == 4 && s.flowKind f == 2 && s.flowDev f == dev)).or
    ((s.bindFlow dev).filter (fun f => s.flowState f != 6))

/-- A channel's access to an address waits for its flow or for a slot of the remote pool (R243, R247). -/
def State.dmaHeld (s : State) (a : Pair) : Bool := s.farAway a && (s.dmaFlow (deviceOf a)).any (fun f => !s.canSend f)

/-- Data bytes of a channel's packet: with the request's head, a body of 4,096 bytes (R293) (DESIGN CHOICE, log 25). -/
def dmaChunk : Nat := 4088

/-- Packets of a channel to another device: from a die's channel by the remote access path, from a hub or bulk channel by its own input of the router (R254). The flow's binding entry is cached (R319). -/
def State.dmaSend (s : State) (q f typ : Nat) (l : List (Pair × Nat)) (b : List Byte) : State :=
  let ps := l.flatMap (fun r => (List.range (ceilDiv r.2 dmaChunk)).map (fun i => (r.1 + BitVec.ofNat 72 (dmaChunk * i), min dmaChunk (r.2 - dmaChunk * i))))
  let s1 := if s.flowKind f = 0 then s.bindFill (s.flowDev f) else s
  (ps.foldl (fun (acc : State × List Byte) p =>
    ((acc.1.flowSend f typ (reqHead (s.dmaLevel q) (localOf p.1) 0 p.2 ++ acc.2.take p.2) (if dmaKind q = 0 then 12 else 11) (some (192 + q))).2,
      acc.2.drop p.2)) (s1, b)).1

/-- A word slot that a channel writes to its ring or queue: memory through the tensor cache, a control-window register by its access codes, or a packet to another device, which answers as `res` says (DEDUCED, log 33). -/
def State.dmaPutWord (s : State) (q : Nat) (a : Pair) (w : Word) (res : RemRes) : Option (Pair × XErr) × State :=
  if badTop a then (some (a, .bus 0), s)
  else if s.farAway a then
    match s.dmaFlow (deviceOf a) with
    | none => (some (a, .bus 4), s)
    | some f => (remErr [(a, 8)] res, s.dmaSend q f 4 [(a, 8)] (wordBytes w))
  else
    match s.dmaSlot q .write a 8 with
    | .error e => (some (a, e), s)
    | .ok (pa, h) =>
      match s.region pa with
      | .ctl o => (none, s.ctlPlain o w)
      | _ => (none, (s.agentTouch (s.agentDie (192 + q) pa) pa none h true).memPut pa (wordBytes w))

/-- Word slots in order, up to the first that fails. -/
def State.dmaPutWords (s : State) (q : Nat) (a : Pair) (ws : List Word) (res : RemRes) : Option (Pair × XErr) × State :=
  match ws with
  | [] => (none, s)
  | w :: r =>
    match s.dmaPutWord q a w res with
    | (some e, t) => (some e, t)
    | (none, t) => t.dmaPutWords q (a + 8#72) r res

/-- Word 0 of the descriptor at HEAD where it can be read in this device's memory, without side effects. -/
def State.dmaCtrlWord (s : State) (q : Nat) : Except XErr Word :=
  match s.dmaPlain q .read (s.dmaHeadAddr q) 8 with
  | .error e => .error e
  | .ok pa => .ok (s.wordAt pa)

/-- The channel's fault registers for an access (R283). -/
def State.dmaFault (s : State) (q : Nat) (e : XErr) (write : Bool) (a : Pair) (remote : Bool) : State :=
  let info : Nat := match e with
    | .page l r => l * 4 + r * 16
    | .bus r => r * 16
    | .mem src _ => src * 16
  let s1 := if remote then s else s.noteErr e
  ((s1.ctlSet (dmaOff q 0x60) (lo36 a)).ctlSet (dmaOff q 0x68) (hi36 a)).ctlSet (dmaOff q 0x70)
    (word (flag write 0 + info + flag remote 7))

/-- STATUS of a record for an access error. -/
def XErr.status : XErr → Nat
  | .page _ _ => 2
  | .bus _ => 3
  | .mem _ _ => 4

/-! ## Descriptors (R274, R275) -/

/-- A descriptor from its words. -/
def dmaDescOf (l : List Word) (index : Nat) : DmaDesc :=
  { ctrl := l.getD 0 0#36, src := mkPair (l.getD 2 0#36) (l.getD 1 0#36), dst := mkPair (l.getD 4 0#36) (l.getD 3 0#36),
    shape := l.getD 5 0#36, stride := l.getD 6 0#36, aux := l.getD 7 0#36, index := index }

/-- OP. -/
def DmaDesc.op (d : DmaDesc) : Nat := fld d.ctrl 0 4
/-- ROW_LEN. -/
def DmaDesc.rowLen (d : DmaDesc) : Nat := fld d.shape 0 18
/-- ROWS. -/
def DmaDesc.rows (d : DmaDesc) : Nat := fld d.shape 18 18
/-- LEN. -/
def DmaDesc.len (d : DmaDesc) : Nat := d.shape.toNat
/-- Element size of TRANSPOSE in bytes. -/
def DmaDesc.esize (d : DmaDesc) : Nat := 2 ^ fld d.aux 12 3
/-- Row `r` of an address with a stride in 16-byte units. -/
def strideAddr (a : Pair) (stride : BitVec 18) (r : Nat) : Pair := a + stride.signExtend 72 * BitVec.ofNat 72 (16 * r)
/-- SRC_STRIDE. -/
def DmaDesc.srcStride (d : DmaDesc) : BitVec 18 := d.stride.extractLsb' 0 18
/-- DST_STRIDE. -/
def DmaDesc.dstStride (d : DmaDesc) : BitVec 18 := d.stride.extractLsb' 18 18

/-- Slots of `n` elements of a format. -/
def convSlots (code n : Nat) : Nat := n / (match NumFmt.ofCode code with | some f => f.perSlot | none => 1)

/-- The ranges that a descriptor writes, in its order. -/
def DmaDesc.dsts (d : DmaDesc) : List (Pair × Nat) :=
  match d.op with
  | 1 => [(d.dst, d.len)]
  | 2 => (List.range d.rows).map (fun r => (strideAddr d.dst d.dstStride r, d.rowLen))
  | 3 => (List.range d.rowLen).map (fun c => (strideAddr d.dst d.dstStride c, d.rows * d.esize))
  | 4 => if bitAt d.stride 29 then [] else [(d.dst, imageLen (fld d.stride 5 5) (convSlots (fld d.stride 5 5) d.len))]
  | 5 => [(d.dst, d.len)]
  | _ => []

/-- The ranges that a descriptor reads, in its order. -/
def DmaDesc.srcs (d : DmaDesc) : List (Pair × Nat) :=
  match d.op with
  | 1 => [(d.src, d.len)]
  | 2 => (List.range d.rows).map (fun r => (strideAddr d.src d.srcStride r, d.rowLen))
  | 3 => (List.range d.rows).map (fun r => (strideAddr d.src d.srcStride r, d.rowLen * d.esize))
  | 4 => [(d.src, imageLen (fld d.stride 0 5) (convSlots (fld d.stride 0 5) d.len))]
  | _ => []

/-- A range cut at line boundaries; `fuel` bounds the number of pieces. -/
def linePieces (a : Pair) (n : Nat) : Nat → List (Pair × Nat)
  | 0 => []
  | k + 1 =>
    if n = 0 then []
    else
      let m := min n (64 - fld a 0 6)
      (a, m) :: linePieces (a + BitVec.ofNat 72 m) (n - m) k

/-- A range cut at line boundaries. -/
def pieces (r : Pair × Nat) : List (Pair × Nat) := linePieces r.1 r.2 (r.2 / 64 + 2)

/-- Fills local plain ranges with bytes that nothing constrains (R9). -/
def State.dmaUndefined (s : State) (q : Nat) (l : List (Pair × Nat)) : State :=
  l.foldl (fun t r => (pieces r).foldl (fun t p =>
    match t.dmaPlain q .write p.1 p.2 with
    | .ok pa =>
      let (n, t1) := t.fresh
      t1.memPut pa ((Config.freeBytes n p.2 ++ List.replicate p.2 0#8).take p.2)
    | .error _ => t) t) s

/-! ## The completion record (R279, R280) -/

/-- The channel runs in phases (R281). -/
def State.dmaSched (s : State) (q : Nat) : Bool := s.ctlFld (dmaOff q 0) 2 1 == 1

/-- Word 0 of a record without PHASE and OVERRUN: STATUS, CHANNEL, LATE and the bits above. -/
def State.dmaWord0 (s : State) (q status high : Nat) : Word :=
  word (status * 2 + q * 2 ^ 6 + flag (s.dmaSched q && (s.dmaX q).late) 15 + high)

/-- Word 1 of a record: INDEX and TAG. -/
def DmaDesc.word1 (d : DmaDesc) : Word := word (d.index + fld d.aux 16 20 * 2 ^ 16)

/-- The queue is full. -/
def State.dmaFull (s : State) (q : Nat) : Bool :=
  (s.ctlFld (dmaOff q 0x48) 0 16 + 1) % s.dmaQueue q == s.ctlFld (dmaOff q 0x50) 0 16 % s.dmaQueue q

/-- TAIL advances; PHASE inverts as it wraps; DONE counts the record. -/
def State.dmaTail (s : State) (q : Nat) : State :=
  let t := s.ctlFld (dmaOff q 0x48) 0 16
  let n := (t + 1) % s.dmaQueue q
  let w := setFld (s.ctlGet (dmaOff q 0x48)) 0 16 n
  let w := if n = 0 then setBitAt w 16 (!bitAt w 16) else w
  (s.ctlSet (dmaOff q 0x48) w).ctlCount (dmaOff q 0x78) 0 24

/-- Address of the record at TAIL. -/
def State.dmaTailAddr (s : State) (q : Nat) : Pair := s.dmaPair q 0x38 5 + BitVec.ofNat 72 (32 * s.ctlFld (dmaOff q 0x48) 0 16)

/-- Writes a record at TAIL: words 0x08–0x18, then word 0x00 with PHASE, and OVERRUN when the tick that ended the phase's first frame has passed (R279–R281). -/
def State.dmaPutRecord (s : State) (q : Nat) (r : DmaRec) (res : RemRes) : Option (Pair × XErr) × State :=
  let a := s.dmaTailAddr q
  let w0 := setFld r.w0 0 1 (s.ctlFld (dmaOff q 0x48) 16 1)
  match s.dmaPutWords q (a + 8#72) [r.w1, r.w2, r.w3] res with
  | (some e, t) => (some e, t)
  | (none, t) =>
    match t.dmaPutWord q a (if t.dmaSched q && (t.dmaX q).ranOver then setBitAt w0 14 true else w0) res with
    | (some e, u) => (some e, u)
    | (none, u) => (none, u.dmaTail q)

/-- Clears OWN of the descriptor at HEAD and advances HEAD. -/
def State.dmaRelease (s : State) (q : Nat) (ctrl : Word) (res : RemRes) : Option (Pair × XErr) × State :=
  match s.dmaPutWord q (s.dmaHeadAddr q) (setBitAt ctrl 7 false) res with
  | (some e, t) => (some e, t)
  | (none, t) => (none, t.dmaAdvance q)

/-- The channel halts on an error of one of its own accesses. -/
def State.dmaHalt (s : State) (q : Nat) (e : Pair × XErr) : State :=
  (((s.dmaFault q e.2 true e.1 false).setDmaState q 4).ctlPut (dmaOff q 0x18) 3 1 0).modDmaX q (fun x => { x with stopping := false })

/-- The pending record is written when the queue has room; then OWN, HEAD, SEM_INC (R280). -/
def State.dmaRecord (s : State) (q : Nat) (res : RemRes) : State :=
  let x := s.dmaX q
  match x.record with
  | none => s
  | some r =>
    if s.dmaFull q then (s.ctlPut (dmaOff q 0x18) 3 1 1).setDmaState q 3
    else if s.dmaHeld (s.dmaTailAddr q) || s.dmaHeld (s.dmaHeadAddr q) then s
    else
      match s.dmaPutRecord q r res with
      | (some e, t) => ((t.ctlPut (dmaOff q 0x18) 5 5 r.status).modDmaX q (fun x => { x with record := none })).dmaHalt q e
      | (none, s1) =>
        let s2 := (s1.ctlPut (dmaOff q 0x18) 5 5 r.status).ctlPut (dmaOff q 0x18) 3 1 0
        match r.release with
        | none =>
          (s2.setDmaState q (if x.stopping then 0 else 4)).modDmaX q (fun x => { x with record := none, stopping := false })
        | some ctrl =>
          match s2.dmaRelease q ctrl res with
          | (some e, t) => (t.modDmaX q (fun x => { x with record := none })).dmaHalt q e
          | (none, s3) =>
            let s4 := if bitAt ctrl 4 then s3.semAdd (s3.ctlFld (dmaOff q 0) 3 12) 1#36 else s3
            (s4.setDmaState q (if x.stopping then 0 else 1)).modDmaX q (fun x =>
              { x with record := none, desc := none, scale := none, stopping := false, look := !x.stopping })

/-- DMA_COMPLETION_RECORD of a channel, with how another device answers where the queue or the ring lies there. -/
def execDmaCompletionRecord (q : Nat × RemRes) (s : State) : Out :=
  if dmaPresent s.variant q.1 then .next (s.dmaRecord q.1 q.2) else .next s

/-! ## Control writes (R271, R282) -/

/-- A doorbell. -/
def State.dmaDoorbell (s : State) (q : Nat) : State := s.ctlPut (dmaOff q 0x18) 10 1 1

/-- The channel is reset or aborted: its locks end (R262). -/
def State.dmaUnlock (s : State) (q : Nat) : State := s.arbAgentReset (192 + q)

/-- Leaves WAITING: CQFULL and PHASE_WAIT are 0. -/
def State.dmaQuiet (s : State) (q : Nat) : State := s.ctlPut (dmaOff q 0x18) 3 2 0

/-- The ABORTED record of a descriptor with a word 1, if the queue has room; BYTES is free (R282). -/
def State.dmaAborted (s : State) (q : Nat) (w1 : Word) : State :=
  let (n, s1) := s.fresh
  let r : DmaRec := { w0 := s1.dmaWord0 q 5 0, w1 := w1, w2 := Config.freeWord n, w3 := 0#36, status := 5, release := none }
  (if s1.dmaFull q then s1 else match s1.dmaPutRecord q r (.data []) with
    | (none, t) => t
    | (some e, t) => t.dmaFault q e.2 true e.1 false).ctlPut (dmaOff q 0x18) 5 5 5

/-- OWN of the descriptor at HEAD is cleared and HEAD moves past it, as ABORT and SKIP do; word 0 that cannot be read or written stays. -/
def State.dmaPass (s : State) (q : Nat) (ctrl : Except XErr Word) : State :=
  match ctrl with
  | .error e => (s.dmaFault q e false (s.dmaHeadAddr q) false).dmaAdvance q
  | .ok w =>
    match s.dmaRelease q w (.data []) with
    | (none, t) => t
    | (some e, t) => (t.dmaFault q e.2 true e.1 false).dmaAdvance q

/-- ABORT (R282). -/
def State.dmaAbort (s : State) (q : Nat) : State :=
  let x := s.dmaX q
  let s0 := s.dmaUnlock q
  let s1 := match x.desc, x.record with
    | none, none => s0
    | none, some r => let t := s0.dmaAborted q r.w1; t.dmaPass q (t.dmaCtrlWord q)
    | some d, _ =>
      let t := (((s0.dmaUndefined q d.dsts).dmaAborted q d.word1).dmaPass q (.ok d.ctrl))
      if bitAt d.ctrl 4 then t.semAdd (t.ctlFld (dmaOff q 0) 3 12) 1#36 else t
  ((s1.dmaQuiet q).setDmaState q 0).modDmaX q (fun x =>
    { x with desc := none, record := none, scale := none, look := false, stopping := false, waits := none })

/-- STOP (R282): a descriptor that has begun writing keeps its record; one that has only read is discarded. -/
def State.dmaStop (s : State) (q : Nat) : State :=
  let x := s.dmaX q
  if x.record.isSome then s.setDmaX q { x with stopping := true }
  else ((s.dmaQuiet q).setDmaState q 0).setDmaX q { x with desc := none, scale := none, look := false, waits := none }

/-- RESET (R282, R288). -/
def State.dmaReset (s : State) (q : Nat) : State :=
  let s1 := [0x30, 0x48, 0x58, 0x60, 0x68, 0x70, 0x78, 0x98].foldl (fun t r => t.ctlSet (dmaOff q r) (ctlReset t.variant (dmaOff q r))) (s.dmaUnlock q)
  ((s1.dmaQuiet q).setDmaState q 0).setDmaX q {}

/-- SKIP (R282): the next read of HEAD needs no doorbell (R270). -/
def State.dmaSkip (s : State) (q : Nat) : State :=
  let s1 := s.dmaPass q (match (s.dmaX q).desc with | some d => .ok d.ctrl | none => s.dmaCtrlWord q)
  (s1.setDmaState q 1).modDmaX q (fun x => { x with desc := none, record := none, scale := none, look := true })

/-- RESUME (R282): the failed descriptor runs again from its start. -/
def State.dmaResume (s : State) (q : Nat) : State :=
  let x := s.dmaX q
  match x.desc with
  | some d => (s.setDmaState q 2).setDmaX q { x with snap := s.ctlGet (0x30000 + 16 * fld d.aux 0 12 + 8) }
  | none => (s.setDmaState q 1).setDmaX q { x with look := true }

/-- START (R282). -/
def State.dmaStart (s : State) (q : Nat) : State := (s.setDmaState q 1).modDmaX q (fun x => { x with look := true })

/-- A write of DMA_CTRL: the first of ABORT, RESET, STOP, SKIP, RESUME and START acts, in the states that R282 names. -/
def State.dmaCtrl (s : State) (q : Nat) (v : Word) : State :=
  let st := s.dmaState q
  if bitAt v 2 && s.variant == .m9440 then (if st = 2 ∨ st = 3 then s.dmaAbort q else s)
  else if bitAt v 5 then (if st = 0 ∨ st = 4 then s.dmaReset q else s)
  else if bitAt v 1 then (if st = 0 then s else s.dmaStop q)
  else if bitAt v 4 then (if st = 4 then s.dmaSkip q else s)
  else if bitAt v 3 then (if st = 4 then s.dmaResume q else s)
  else if bitAt v 0 then (if st = 0 then s.dmaStart q else s)
  else s

/-- A register write to a channel's block by M or K, or as far as R287 lets T write (R287, R288). -/
def State.dmaWrite (s : State) (q r : Nat) (v : Word) : State :=
  let o := dmaOff q r
  let put := s.ctlSet o ((ctlMap s.variant o).writeVal false (s.ctlGet o) v)
  if r = 0x08 then s.dmaCtrl q v
  else if r = 0x10 then s.dmaDoorbell q
  else if r = 0x50 then put
  else if s.dmaState q = 0 then
    if r = 0x88 then put.ctlSet (dmaOff q 0x98) 0#36
    else if r = 0x00 ∧ put.dmaSched q = false then put.modDmaX q (fun x => { x with phase := none, late := false, ranOver := false })
    else if r = 0x20 ∨ r = 0x38 ∨ r = 0x00 ∨ r = 0x28 ∨ r = 0x40 ∨ r = 0x90 ∨ r = 0x98 then put
    else s
  else s

/-! ## Frame phases (R281) -/

/-- The channel's phase is still running: a descriptor is in progress or failed, or the one at HEAD belongs to the phase. -/
def State.dmaBusy (s : State) (q : Nat) : Bool :=
  let x := s.dmaX q
  let st := s.dmaState q
  if x.waits.isSome then false
  else if st = 2 ∨ st = 3 ∨ st = 4 then true
  else if st = 1 ∧ x.look = true then
    match s.dmaCtrlWord q with
    | .ok w => bitAt w 7 && !bitAt w 13
    | .error _ => false
  else false

/-- At a tick: a phase that is still running at the tick that ends its first frame marks OVERRUN, once (R281). -/
def State.dmaOverrun (s : State) (q : Nat) : State :=
  let x := s.dmaX q
  match x.phase with
  | none => s
  | some (t, _) =>
    if t + 1 = s.now ∧ x.ranOver = false ∧ s.dmaSched q = true ∧ s.dmaBusy q = true then
      (s.setDmaX q { x with ranOver := true }).ctlCount (dmaOff q 0x78) 24 12
    else s

/-- The first point at or after a reference time (after it, when `strict`) at which unit `unit` of frame `frame` of a schedule begins. -/
def startPoint (start len frame unit : Nat) (ref : Nat × Nat) (strict : Bool) : Nat × Nat :=
  let t0 := max ref.1 start
  let d := (frame + len - (t0 - start) % len) % len
  if d = 0 ∧ t0 = ref.1 ∧ (unit < ref.2 ∨ (strict = true ∧ unit = ref.2)) then (t0 + len, unit) else (t0 + d, unit)

end Sys2Proof.Machine
end

