-- ==== Sys2Proof/Machine/FabPort.lean ====
section
/-!
DEFINITION. Fabric ports: bring-up, retry, retraining, credits, and packets that arrive (R293–R304).
-/
namespace Sys2Proof.Machine

/-! ## Port state -/

/-- A port takes a state: status, PORTS_UP, log, events (R297, R410). -/
def State.portEnter (s : State) (p st reason : Nat) : State :=
  let old := s.portState p
  if old = st ∧ s.ctlFld (portOff p 8) 3 3 = reason then s
  else
    let s1 := (s.ctlPut (portOff p 8) 0 3 st).ctlPut (portOff p 8) 3 3 reason
    let s2 := (s1.ctlPut 0x200008 5 4 s1.upPorts.length).logAdd 0x0009 p (st + reason * 8)
    let disc := s.ctlGet 0x200048
    let nbr := s.ctlGet (portOff p 0x10)
    let s3 := if old = 2 ∧ st ≠ 2 then ((s2.fabEvent 2).ephFault 3 p none).modPortX p (fun x =>
        { x with leftUp := true, lostBest := bitAt disc 23 && bitAt nbr 14 && fld disc 0 14 == fld nbr 0 14, child := false }) else s2
    let s4 := if old ≠ 2 ∧ st = 2 then s3.fabEvent 3 else s3
    if st = 4 ∧ (reason = 2 ∨ reason = 3) then s4.fabEvent 4 else s4

/-- The single-hop flows of a port (R318): their partner is the neighbour on it. -/
def State.portFlows (s : State) (p : Nat) : List Nat :=
  ((s.ctl.filter (fun e => decide (0x300000 ≤ e.1) && decide (e.1 < 0x400000) && e.1 % 64 == 0)).map (fun e => (e.1 - 0x300000) / 64)).filter
    (fun f => (s.flowState f == 4 || s.flowState f == 5) && s.flowDev f == s.nbrId p)

/-- A packet that waits here for another device; link-local control is for the neighbour alone. -/
def OutPkt.stays (e : OutPkt) : Bool := !linkLocal e.packet.typ

/-- What a port keeps as its link ends: the packets that wait for other devices, which are routed again at the next tick boundary (R301). -/
def FabPortX.down (x : FabPortX) : FabPortX :=
  { x with phase := 0, probes := [], replay := [], partials := [], credit := [], owed := [], quietOwed := 0, rejoin := none
           backlog := [], queue := x.queue.filter OutPkt.stays }

/-- A port becomes FAILED: its replay buffer is lost, its router input's locks end, and its single-hop flows break (R262, R295, R297, R318). -/
def State.portFail (s : State) (p reason : Nat) : State :=
  let s1 := (s.portEnter p 4 reason).arbLinkReset p
  let s2 := s1.modPortX p (fun x => { x.down with failedAt := s1.now })
  (s2.portFlows p).foldl (fun t f => t.flowBreak f 7 true) s2

/-- A port starts bring-up from DETECT (R295). -/
def State.portStart (s : State) (p : Nat) : State :=
  if s.portUsed p && s.ctlFld (portOff p 0) 0 1 == 0 then
    (s.portEnter p 1 0).modPortX p (fun x =>
      { x.down with phase := 1, attempts := 0, hello := 0, rxSeq := 0, txSeq := 0, nakSent := false, naks := (0, 0), lastRx := none, ackDue := false })
  else s

/-- A port is UP: credits start at zero, and the free VC0 buffers are to be granted (R295, R298). -/
def State.portReady (s : State) (p : Nat) : State :=
  let n := 64 - s.occupied p 0
  (s.portEnter p 2 0).modPortX p (fun x =>
    { x with phase := 0, probes := [], credit := [], owed := Tbl.set 0 [] 0 n, quietOwed := 0, creditSent := false, creditGot := false, granted := false })

/-- VC1–VC4 credits of a port: the free buffers once since the port entered UP, returns afterwards (R298). -/
def State.grantData (s : State) (p : Nat) : State :=
  if (s.portX p).granted then s.creditOut p
  else
    let l := (List.range 5).map (fun v => if v = 0 then 0 else 1024 - s.occupied p v)
    (s.modPortX p (fun x => { x with granted := true, owed := l.zipIdx.foldl (fun t e => Tbl.modify 0 t e.2 (· + e.1)) x.owed })).creditOut p

/-- A port that is UP enters RETRAINING, keeping its replay buffer (R297). -/
def State.portRetrain (s : State) (p : Nat) : State :=
  if s.portUp p then
    ((s.portEnter p 3 0).modPortX p (fun x =>
      { x with phase := 2, hello := 0, probes := [], credit := [], owed := [], quietOwed := 0, naks := (0, 0) })).ctlCount (portOff p 8) 9 8
  else s

/-- A port is held DOWN: disabled, reset, or the fabric is off; its router input's locks end (R262). -/
def State.portHold (s : State) (p reason : Nat) : State :=
  ((s.portEnter p 0 reason).modPortX p (fun x => { x.down with nbrIn := false, best := none })).arbLinkReset p

/-- A control packet on a port: through VC0 where the port is UP; during bring-up outside SEQ and credits, which start at UP (DESIGN CHOICE, log 37). -/
def State.linkSay (s : State) (p typ : Nat) (fields : List Nat) : State :=
  if s.portUp p then s.controlOut p typ fields else s.emit (.control p typ fields)

/-- LINK_HELLO: port number, coordinates, shape, id, LORROKU_ID.IMPL (R294, R295). -/
def State.hello (s : State) (p : Nat) : State := s.linkSay p 0x10 [p, s.coord, s.shape, s.fabId, fld (idReg s.variant 0) 16 12]

/-- A DELAY_PROBE with the device's timestamp, which the spec gives no form (DESIGN CHOICE, log 37). -/
def State.probe (s : State) (p : Nat) : State :=
  let (n, s1) := s.fresh
  s1.linkSay p 0x11 [(Config.freeWord n).toNat]

/-- PORT_BRINGUP. -/
def execPortBringup (p : Nat) (s : State) : Out :=
  let st := s.fabState
  .next (if st ≠ 0 ∧ st ≠ 5 ∧ s.portState p = 0 then s.portStart p else s)

/-- BRINGUP_PHASE_TIMEOUT: the phase that exceeded its limit is named; a failed HELLO check ends all attempts, and a third failed attempt gives reason 1 (DEDUCED, log 37). -/
def execBringupPhaseTimeout (p phase : Nat) (s : State) : Out :=
  let x := s.portX p
  if s.portState p ≠ 1 ∨ phase < x.phase ∨ phase = 0 ∨ 5 < phase then .next s
  else if phase = 4 ∧ x.hello ≠ 0 then .next (s.portFail p x.hello)
  else if 3 ≤ x.attempts + 1 then .next (s.portFail p 1)
  else .next (s.modPortX p (fun x => { x with phase := 1, attempts := x.attempts + 1, probes := [], hello := 0 }))

/-- BRINGUP_RETRY: a port FAILED with reason 1 or 4 starts again every 1,024 ticks. -/
def execBringupRetry (p : Nat) (s : State) : Out :=
  let r := s.ctlFld (portOff p 8) 3 3
  if s.portState p = 4 ∧ (r = 1 ∨ r = 4) ∧ (s.portX p).failedAt + 1024 ≤ s.now then .next (s.portStart p) else .next s

/-- LINK_HELLO: the partner's port number, coordinates, shape and id, answered with this device's own. The checks are the same at both ends, so they pass on both or on neither (R295) (DEDUCED, log 37). -/
def execLinkHello (p port coord shape id : Nat) (s : State) : Out :=
  let x := s.portX p
  if (s.portState p ≠ 1 ∧ s.portState p ≠ 3) ∨ 5 ≤ x.phase then .next s
  else
    let bad := if port ≠ p ^^^ 1 ∨ coord ≠ stepCoord s.shape s.coord p then 2 else if shape ≠ s.shape then 3 else 0
    let s0 := s.hello p
    if bad ≠ 0 then .next (s0.modPortX p (fun x => { x with phase := 4, hello := bad }))
    else
      let s1 := s0.modPortX p (fun x => { x with phase := 5, hello := 0, probes := [] })
      .next ((s1.ctlSet (portOff p 0x10) (word (id % 2 ^ 14 + 2 ^ 14))).probe p)

/-- Inserts a value into a rising list. -/
def insertRising (v : Nat) : List Nat → List Nat
  | [] => [v]
  | w :: r => if v ≤ w then v :: w :: r else w :: insertRising v r

/-- The sixteenth round trip gives the link delay, half the median: a port in bring-up is UP, or FAILED above 800 ns; one that retrains has finished DELAY; one that is UP has measured again (R39, R295, R297). -/
def State.delayDone (s : State) (p : Nat) (l : List Nat) : State :=
  let d := (l.getD 7 0 + l.getD 8 0) / 4
  let s1 := (s.ctlPut (portOff p 0x18) 0 20 (min d (2 ^ 20 - 1))).modPortX p (fun x => { x with probes := [] })
  if s.portState p = 1 then (if 6400 < d then s1.portFail p 6 else (s1.portReady p).creditOut p)
  else if s.portState p = 3 then (if 6400 < d then s1.portFail p 4 else s1.modPortX p (fun x => { x with phase := 6 }))
  else s1

/-- DELAY_PROBE: the partner's is echoed with its timestamp; the echo of an own one gives a round trip, and the next goes out until 16 are measured. -/
def execDelayProbe (p : Nat) (v : Probe) (s : State) : Out :=
  let x := s.portX p
  if s.portUp p = false ∧ x.phase < 5 then .next s
  else match v with
    | .partner stamp => .next (s.linkSay p 0x11 [stamp])
    | .echo trip =>
      let l := insertRising trip x.probes
      .next (if x.phase = 6 then s
        else if l.length < 16 then (s.modPortX p (fun x => { x with probes := l })).probe p
        else s.delayDone p l)

/-! ## Flits and credits -/

/-- TYPEs that R294 names. -/
def typeKnown (t : Nat) : Bool := decide (t ≤ 5) || (decide (0x10 ≤ t) && decide (t ≤ 0x1D))

/-- Flits up to an acknowledged one leave the replay buffer. -/
def State.acked (s : State) (p : Nat) : Option Nat → State
  | none => s
  | some a =>
    let is (e : Flit × Option Nat) : Bool := e.1.seq == a
    s.modPortX p (fun x => if x.replay.any is then { x with replay := (x.replay.dropWhile (fun e => !is e)).drop 1 } else x)

/-- Sends the flits of the replay buffer again from a SEQ on, with the ACK of now; they take no second credit (R296, R297) (DESIGN CHOICE, log 37). -/
def State.resend (s : State) (p seq : Nat) : State :=
  let x := s.portX p
  ((x.replay.dropWhile (fun e => e.1.seq != seq)).foldl (fun t e => t.emit (.flit p { e.1 with ack := x.lastRx } e.2)) s).modPortX p (fun x => { x with ackDue := false })

/-- A filler flit carries an ACK that nothing else has carried. -/
def State.ackOut (s : State) (p : Nat) : State :=
  let x := s.portX p
  if x.ackDue && s.portUp p && !s.portsIdle then
    (s.emit (.flit p { seq := 0, ack := x.lastRx, vc := 0, idle := true } none)).modPortX p (fun x => { x with ackDue := false })
  else s

/-- A flit that cannot be accepted is discarded; one NAK names the expected SEQ (R296). -/
def State.nakOut (s : State) (p : Nat) : State :=
  let x := s.portX p
  if x.nakSent then s else (s.controlOut p 0x13 [x.rxSeq]).modPortX p (fun x => { x with nakSent := true })

/-- Buffers of packets that are discarded or delivered. CREDIT flits free theirs quietly, and the first after UP took none. -/
def State.freed (s : State) (p v n : Nat) (credit : Bool) : State :=
  s.modPortX p (fun x =>
    if credit = false then x.owe v n
    else if x.creditGot then { x.owe v n with quietOwed := x.quietOwed + n }
    else { x with creditGot := true })

/-- A packet is complete: one of a reserved TYPE, or of a LEN that its flits do not have, is discarded; one for this device is delivered, which the command of its TYPE performs; any other goes on its way (R294, R300) (DESIGN CHOICE, log 37). -/
def State.packetIn (s : State) (p v : Nat) (l : List Byte) (detour : Option Nat) : State :=
  let k := packetOfBytes l
  let n := l.length / 244
  if typeKnown k.typ = false then (s.ctlCount (portOff p 0x20) 24 12).freed p v n false
  else if 4096 < k.len ∨ flitsOf k ≠ n then s.freed p v n false
  else if linkLocal k.typ ∨ k.dest = s.fabId then s.freed p v n (k.typ == 0x12)
  else s.reroute { vc := v, packet := k, body := (l.drop 16).take k.len, detour := if 3 ≤ v then detour else none, arrive := some (p, v), input := p }

/-- The payload of a flit accepted in order joins its packet; a flit that continues no packet is discarded. -/
def State.flitIn (s : State) (p : Nat) (f : Flit) (detour : Option Nat) : State :=
  let old := Tbl.get [] (s.portX p).partials f.vc
  let l := if f.sop then f.payload else old ++ f.payload
  let keep (t : State) (b : List Byte) : State := t.modPortX p (fun x => { x with partials := Tbl.set [] x.partials f.vc b })
  if f.sop = false ∧ old.isEmpty = true then s.freed p f.vc 1 false
  else
    let s1 := if f.sop && !old.isEmpty then s.freed p f.vc (old.length / 244) false else s
    if f.eop then (keep s1 []).packetIn p f.vc l detour else keep s1 l

/-- FLIT_RECEIVE (R296): the 256 bytes of a flit and the axis that its packet's detour left, accepted in SEQ order or discarded with a NAK. -/
def execFlitReceive (p : Nat) (b : List Byte × Option Nat) (s : State) : Out :=
  if s.portUp p = false then .next s
  else match flitRead b.1 with
    | none => .next ((s.ctlCount (portOff p 0x20) 0 12).nakOut p)
    | some f =>
      if f.idle then .next ((s.acked p f.ack).linksGo)
      else if 5 ≤ f.vc ∨ f.seq ≠ (s.portX p).rxSeq then .next (s.nakOut p)
      else
        let s1 := (s.acked p f.ack).modPortX p (fun x =>
          { x with rxSeq := (x.rxSeq + 1) % 4096, nakSent := false, lastRx := some f.seq, ackDue := true })
        .next (((s1.flitIn p f b.2).linksGo).ackOut p)

/-- NAK: the sender resends from the named flit; the eighth in succession for one SEQ starts retraining (R296, R297). -/
def execNak (p seq : Nat) (s : State) : Out :=
  if s.portUp p = false then .next s
  else
    let x := s.portX p
    let n := if x.naks.1 = seq ∧ x.naks.2 ≠ 0 then x.naks.2 + 1 else 1
    let s1 := (s.modPortX p (fun x => { x with naks := (seq, n) })).ctlCount (portOff p 0x20) 12 12
    if 8 ≤ n then .next (s1.portRetrain p)
    else .next (s1.resend p seq)

/-- RETRAIN_DONE: once DELAY is over, transmission resumes from the oldest unacknowledged flit, and while both ends take part in the fabric ROUTE_AT names the tick of the routes; otherwise the port becomes FAILED with reason 4 (R297, R301). -/
def execRetrainDone (p : Nat) (ok : Bool) (s : State) : Out :=
  if s.portState p ≠ 3 then .next s
  else if ok = false then .next (s.portFail p 4)
  else if (s.portX p).phase ≠ 6 then .next s
  else
    let s1 := s.portReady p
    let s2 := (match (s1.portX p).replay with | [] => s1 | (f, _) :: _ => s1.resend p f.seq).creditOut p
    if s2.inFabric = false ∨ (s2.portX p).nbrIn = false then .next s2
    else
      let at_ := s2.now + s2.ctlFld 0x200028 9 5
      if s2.fabId < s2.nbrId p then
        .next ((s2.controlOut p 0x1D [at_ % 2 ^ 36]).modPortX p (fun x => { x with rejoin := some (some at_) }))
      else .next (s2.modPortX p (fun x => { x with rejoin := some none }))

/-- CREDIT: returned credits per virtual channel (R298). -/
def execCredit (p : Nat) (l : List Nat) (s : State) : Out :=
  if s.portUp p = false then .next s
  else
    let s1 := s.modPortX p (fun x => { x with credit := (List.range 5).foldl (fun t v => Tbl.set 0 t v (Tbl.get 0 t v + l.getD v 0)) x.credit })
    .next s1.linksGo

/-- LINK_ALIGN_LOST (R297). -/
def execLinkAlignLost (p : Nat) (s : State) : Out := .next (s.portRetrain p)

/-- LINK_RESET (R443): the replay buffer is discarded, the router input's locks end, and the port stays DOWN until it is enabled. -/
def State.linkReset (s : State) (p : Nat) : State :=
  if s.portUsed p = false then s
  else s.portHold p 0

/-- LINK_RESET. -/
def execLinkReset (p : Nat) (s : State) : Out := .next (s.linkReset p)

/-- Hops between coordinates by the shorter ways. -/
def hopsBetween (shape c d : Nat) : Nat :=
  ((List.range 5).map (fun a =>
    let l := axisLen shape a
    let u := (coordOf d a + l - coordOf c a) % l
    min u (l - u))).sum

/-- The first hop, hops and detour of a flow's route under the current routes, as FC_ROUTE reports them (R316). -/
def State.flowRoute (s : State) (f : Nat) : Word :=
  let dest := s.flowDev f
  let d := coordsOf s.shape dest
  let nb := flag (s.usedPorts.any (fun p => s.nbrId p == dest)) 10
  let first (p : Nat) : Nat := if s.flowState f = 4 then p else 15
  match s.routeOf dest none none with
  | none => word (15 + hopsBetween s.shape s.coord d * 16 + nb)
  | some (p, _, none) => word (first p + hopsBetween s.shape s.coord d * 16 + nb)
  | some (p, _, some _) => word (first p + (1 + hopsBetween s.shape (stepCoord s.shape s.coord p) d) * 16 + flag true 9 + nb)

end Sys2Proof.Machine
end

