-- ==== Sys2Proof/Machine/Fabric.lean ====
section
/-!
DEFINITION. The fabric as a whole: flood notices, beacons and the election, admission, draining and loss, and the operations on flow contexts (R305–R321).
-/
namespace Sys2Proof.Machine

/-! ## Flood notices (R307) -/

/-- A flood notice: KIND 0 ADMIT, 1 LEAVE, 2 MASTER_LOST, 3 PORT_LOST. -/
def noticeOf (origin kind port tick : Nat) : BitVec 64 :=
  BitVec.ofNat 64 (origin % 2 ^ 14 + kind * 2 ^ 14 + port * 2 ^ 16 + tick % 2 ^ 36 * 2 ^ 20)
/-- Origin id. -/
def noticeOrigin (n : BitVec 64) : Nat := fld n 0 14
/-- KIND. -/
def noticeKind (n : BitVec 64) : Nat := fld n 14 2
/-- Tick. -/
def noticeTick (n : BitVec 64) : Word := n.extractLsb' 20 36

/-- Two notices are the same by origin, kind and tick. -/
def sameNotice (a b : BitVec 64) : Bool :=
  noticeOrigin a == noticeOrigin b && noticeKind a == noticeKind b && noticeTick a == noticeTick b

/-- Sends the notices that wait on a port, up to 24 in a FLOOD, within its budget of the tick; `n` bounds the packets. -/
def State.floodPump (s : State) (p : Nat) : Nat → State
  | 0 => s
  | n + 1 =>
    let x := s.portX p
    if x.backlog.isEmpty = true ∨ s.ctlFld 0x200030 12 12 ≤ x.floods then s
    else ((s.controlOut p 0x16 ((x.backlog.take 24).map BitVec.toNat)).modPortX p (fun x =>
      { x with floods := x.floods + 1, backlog := x.backlog.drop 24 })).floodPump p n

/-- Notices go out on a port; what its budget does not take waits and raises FLOOD_BACKLOG. -/
def State.floodSend (s : State) (p : Nat) (ns : List (BitVec 64)) : State :=
  let s1 := s.modPortX p (fun x => { x with backlog := x.backlog ++ ns })
  let s2 := s1.floodPump p (s1.portX p).backlog.length
  if (s2.portX p).backlog.isEmpty then s2 else s2.fabEvent 7

/-- Records a notice and forwards it on every UP port but the one it came from, the first time it is seen; one that came late takes effect at the next boundary. -/
def State.flood (s : State) (n : BitVec 64) (src : Option Nat) : State :=
  if s.fab.seen.any (fun e => sameNotice e.1 n) then s
  else
    let late := s.tickDue (noticeTick n) && src.isSome
    let s1 : State := { s with fab := { s.fab with
      seen := s.fab.seen ++ [(n, s.now)], due := s.fab.due ++ [(n, if late then some (s.now + 1) else none)]
      held := if noticeKind n = 0 then s.fab.held.filter (fun i => i != noticeOrigin n) else s.fab.held } }
    let s2 := if late then s1.fabEvent 8 else s1
    (s2.upPorts.filter (fun p => some p != src)).foldl (fun t p => t.floodSend p [n]) s2

/-- Floods a notice of this device. -/
def State.floodOwn (s : State) (kind port tick : Nat) : State := s.flood (noticeOf s.fabId kind port tick) none

/-- FLOOD: up to 24 notices received on a port. -/
def execFlood (p : Nat) (ns : List (BitVec 64)) (s : State) : Out :=
  if s.portUp p = false then .next s else .next ((ns.take 24).foldl (fun t n => t.flood n (some p)) s)

/-- Membership changes for an id (R307); Alidade reports it. -/
def State.setMember (s : State) (id : Nat) (b : Bool) : State :=
  if Tbl.get false s.fab.members id = b then s
  else ({ s with fab := { s.fab with members := Tbl.set false s.fab.members id b } } : State).hostEvent 2

/-- The neighbour of another device through one of its ports. -/
def State.nbrOf (s : State) (id p : Nat) : Nat := idOf s.shape (stepCoord s.shape (coordsOf s.shape id) p)

/-- Every used neighbour of a device has flooded PORT_LOST for it. -/
def State.allLost (s : State) (id : Nat) : Bool :=
  ((List.range 10).filter (fun p => axisUsed s.shape (p / 2))).all (fun p => s.fab.lost.contains (id, s.nbrOf id p))

/-- One notice takes effect at its tick boundary (R307, R308, R301, R318). -/
def State.noticeEffect (s : State) (n : BitVec 64) : State :=
  let id := noticeOrigin n
  let ports := (List.range 10).filter (fun p => s.ctlFld (portOff p 0x10) 14 1 == 1 && s.ctlFld (portOff p 0x10) 0 14 == id)
  match noticeKind n with
  | 0 =>
    let s1 := ({ s with fab := { s.fab with lost := s.fab.lost.filter (fun e => e.1 != id) } } : State).setMember id true
    ports.foldl (fun t p => t.modPortX p (fun x => { x with nbrIn := true, rejoin := if x.rejoin = some none then none else x.rejoin })) s1
  | 1 =>
    let s1 := ports.foldl (fun t p => t.modPortX p (fun x => { x with nbrIn := false })) (s.setMember id false)
    (s1.activeFlows.filter (fun f => s1.flowDev f == id && id != s1.fabId)).foldl (fun t f => t.flowBreak f 6 true) s1
  | 2 => { s with fab := { s.fab with held := if s.fab.held.contains id then s.fab.held else s.fab.held ++ [id] } }
  | _ =>
    let gone := s.nbrOf id (fld n 16 4)
    let s1 : State := { s with fab := { s.fab with lost := if s.fab.lost.contains (gone, id) then s.fab.lost else s.fab.lost ++ [(gone, id)] } }
    if s1.allLost gone then s1.setMember gone false else s1

/-! ## Beacons and the election (R305, R306, R308) -/

/-- A candidate that is better: lower id, then smaller distance. -/
def better (a b : Nat × Nat × Nat) : Bool := decide (a.1 < b.1) || (a.1 == b.1 && decide (a.2.1 < b.2.1))

/-- BEST as (id, distance, parent port), parent 15 for the device itself (R306). -/
def State.bestOf (s : State) : Option (Nat × Nat × Nat) :=
  let self := if s.fabState = 3 ∨ s.ctlFld 0x200008 4 1 = 1 then [(s.fabId, 0, 15)] else []
  let nbrs := s.upPorts.filterMap (fun p => match (s.portX p).best with
    | some (b, d) => if d + 1 ≤ 28 then some (b, d + 1, p) else none
    | none => none)
  match (self ++ nbrs).filter (fun c => !s.fab.held.contains c.1) with
  | [] => none
  | c :: r => some (r.foldl (fun b x => if better x b then x else b) c)

/-- FAB_DISC for a BEST. -/
def discWord : Option (Nat × Nat × Nat) → Word
  | none => word (15 * 2 ^ 19)
  | some (b, d, p) => word (b + d * 2 ^ 14 + p * 2 ^ 19 + 2 ^ 23)

/-- Sends a BEACON on a port: state, BEST_VALID, BEST, DIST. -/
def State.beacon (s : State) (p : Nat) : State :=
  let w := s.ctlGet 0x200048
  s.controlOut p 0x14 [s.fabState, fld w 23 1, fld w 0 14, fld w 14 5]

/-- A change of BEST, DIST or state sends up to 3 more beacons per port per tick (R305). -/
def State.beaconChange (s : State) : State :=
  if s.fabState = 2 ∨ s.fabState = 3 ∨ s.fabState = 4 then
    s.upPorts.foldl (fun t p => if (t.portX p).beacons < 3 then (t.beacon p).modPortX p (fun x => { x with beacons := x.beacons + 1 }) else t) s
  else s

/-- The device becomes tick master: holdover ends; TICK_MASTER shows it from the next tick boundary (R43). -/
def State.takeMaster (s : State) : State :=
  let w := s.ctlGet 0x08
  { s.ctlSet 0x08 (setFld (setFld (setBitAt (setBitAt w 3 false) 4 true) 6 13 0) 19 8 0) with syncMissed := 0, syncMaster := some s.fabId }

/-- BEST, DIST and PARENT anew, and the role of the tick master with them; a seed master that hears a lower BEST drops the role at the next boundary. -/
def State.electCore (s : State) : State :=
  let b := s.bestOf
  let s1 := s.ctlSet 0x200048 (discWord b)
  let drop := s1.ctlFld 0x200008 4 1 = 1 ∧ b.any (fun c => decide (c.1 < s1.fabId)) = true
  let s2 : State := if drop then { s1 with fab := { s1.fab with seedDrop := true } } else s1
  let master := b.any (fun c => c.1 == s2.fabId)
  let w := s2.ctlGet 0x08
  if fld w 0 2 = 2 ∧ bitAt w 2 = true then
    (if master = false then s2.ctlPut 0x08 4 1 0 else if bitAt w 4 then s2 else s2.takeMaster)
  else s2

/-- BEST and DIST of FAB_DISC, with BEST_VALID: what a BEACON carries. -/
def bestPart (w : Word) : Word := setFld w 19 4 0

/-- The election; a change of BEST or DIST sends beacons. -/
def State.elect (s : State) : State :=
  let t := s.electCore
  if bestPart (t.ctlGet 0x200048) = bestPart (s.ctlGet 0x200048) then t else t.beaconChange

/-- Admission state changes, and one beacon a port says so. -/
def State.fabEnter (s : State) (st : Nat) : State := ((s.ctlPut 0x200008 0 3 st).electCore).beaconChange

/-- BEACON (R306): the sender's state; `b` gives its BEST and DIST, and whether its PARENT points back to this device, which a BEACON does not carry (DESIGN CHOICE, log 37). -/
def execBeacon (p st : Nat) (b : Option (Nat × Nat) × Bool) (s : State) : Out :=
  if s.portUp p = false then .next s
  else
    let s1 := (s.ctlPut (portOff p 8) 6 3 st).modPortX p (fun x => { x with best := b.1, nbrIn := st == 3 || st == 4, child := b.2 })
    let s2 : State := if b.1.isSome then { s1 with fab := { s1.fab with quiet := 0 } } else s1
    .next s2.elect

/-! ## Leaving (R309, R313, R42) -/

/-- TICK_ACTIVE_PERIOD takes a period; a change sets PERIOD_CHANGED. -/
def State.setPeriod (s : State) (p : Nat) : State :=
  if s.ctlFld 0x18 0 26 = p then s else (s.ctlPut 0x18 0 26 p).tickEvent 4

/-- The device leaves ADMITTED or DRAINING other than by drain: LEFT. -/
def State.fabLeft (s : State) : State :=
  if s.inFabric then
    let s1 := (s.fabEvent 1).ephFault 4 0 none
    { s1 with fab := { s1.fab with drainEnd := none, leaveAt := none } }
  else s

/-- Leaves lock at once: LOCK_LOST; VC1–VC4 stop with it, and a device of the fabric floods LEAVE for the next tick (R42, R43, R309). -/
def State.loseLock (s : State) : State :=
  let w := s.ctlGet 0x08
  let s1 := (s.ctlSet 0x08 (setFld (setFld w 2 4 0) 19 8 0)).tickEvent 1
  let s2 : State := { s1 with syncGood := 0, syncMissed := 0, lockReady := false, syncStepped := false, syncMaster := none }
  let s3 := s2.ctlPut 0x200008 4 1 0
  if s3.inFabric then s3.floodOwn 1 0 (s3.now + 1) else s3

/-- What a lost lock changes at a tick boundary: the device is free-running at its own period, and QUIET (R36, R37, R309, R312). -/
def State.lockGone (s : State) : State :=
  let w := s.ctlGet 0x08
  if bitAt w 2 then s
  else
    let s1 := if fld w 0 2 = 2 then (s.ctlPut 0x08 0 2 1).setPeriod (s.ctlFld 0x10 0 26) else s
    if s1.inFabric then ((s1.fabLeft).ctlPut 0x200008 3 1 0).fabEnter 2 else s1

/-- Every port is held idle or DOWN, and every flow is FREE: ENABLE 0, cold or warm reset (R309). -/
def State.fabOff (s : State) : State :=
  let s0 := s.fabLeft
  let s1 := s0.activeFlows.foldl (fun t f => (((t.dropQueued f).flowEnter f 0 0).modFlowX f (fun _ => {})).flowFailAll f) s0
  let s2 := (List.range 10).foldl (fun t p => if t.portUsed p then t.portHold p 0 else t) s1
  let s3 : State := { s2 with fab := { s2.fab with due := [], drainEnd := none, leaveAt := none, seedDrop := false, idleAt := none } }
  (((s3.ctlPut 0x200008 3 2 0).ctlPut 0x200008 0 3 0).ctlSet 0x200048 (discWord none)).ctlSet 0x200050 0#36

/-- Brings up every used port (R309). -/
def State.bringUpPorts (s : State) : State := s.usedPorts.foldl (fun t p => if t.portState p = 2 then t else t.portStart p) s

/-- FAB_CTRL.DRAIN (R309, R312, R313). -/
def State.fabDrain (s : State) : State :=
  let st := s.fabState
  if st = 3 then
    let s1 : State := { s with fab := { s.fab with drainEnd := some (s.now + s.ctlFld 0x200028 26 8) } }
    let unsent := s1.remote.filter (fun r => r.pseq.isNone)
    unsent.foldl (fun t r => t.remoteFail r (.bus 4)) (s1.fabEnter 4)
  else if st = 2 ∨ st = 1 then
    let s1 := if s.ctlFld 0x200008 3 1 = 1 then (s.floodOwn 1 0 (s.ctlGet 0x200040).toNat).ctlPut 0x200008 3 1 0 else s
    { s1 with fab := { s1.fab with leaveAt := some (s1.now + 1) } }
  else s

/-- FAB_CTRL.REJOIN (R309). -/
def State.fabRejoin (s : State) : State :=
  if s.fabState = 5 then (({ s with fab := { s.fab with idleAt := none } } : State).fabEnter 1).bringUpPorts else s

/-- A write of FAB_CTRL by M or Alidade. -/
def State.fabCtrl (s : State) (v : Word) : State :=
  let lock := s.ctlFld 0x200000 35 1
  let w := setFld (setFld (setFld (0#36 : Word) 0 1 (fld v 0 1)) 1 1 (fld v 1 1)) 35 1 (max lock (fld v 35 1))
  let s1 := s.ctlSet 0x200000 w
  if bitAt v 0 = false then (if s1.fabState = 0 then s1 else s1.fabOff)
  else
    let s2 := if s1.fabState = 0 ∧ s1.ctlFld 0x200010 14 1 = 1 then (s1.fabEnter 1).bringUpPorts else s1
    let s3 := if bitAt v 2 then s2.fabDrain else s2
    if bitAt v 3 then s3.fabRejoin else s3

/-- A write of FAB_SHAPE: a shape that breaks R289 is a reserved encoding (DEDUCED, log 38). -/
def State.fabShape (s : State) (v : Word) : State :=
  if s.ctlFld 0x200000 35 1 = 1 ∨ shapeOk s.variant (fld v 0 10) = false then s
  else (s.ctlPut 0x200018 0 10 (fld v 0 10)).ctlSet 0x200010 0#36

/-- A write of FAB_COORD: the id follows from shape and coordinates (R290). -/
def State.fabCoord (s : State) (v : Word) : State :=
  let c := fld v 0 20
  if s.ctlFld 0x200000 35 1 = 1 ∨ s.shape = 0 ∨ coordOk s.shape c = false then s
  else (s.ctlPut 0x200020 0 20 c).ctlSet 0x200010 (word (idOf s.shape c + 2 ^ 14))

/-- A write of FAB_PORT_CTRL of a port. -/
def State.fabPortCtrl (s : State) (p : Nat) (v : Word) : State :=
  if s.variant.ports ≤ p then s
  else
    let s1 := s.ctlPut (portOff p 0) 0 1 (fld v 0 1)
    if bitAt v 0 then (if s1.portUsed p then s1.portHold p 5 else s1)
    else if bitAt v 1 then s1.portRetrain p else s1

/-! ## Admission (R308–R315) -/

/-- Every used port is UP or FAILED. -/
def State.portsSettled (s : State) : Bool := s.usedPorts.all (fun p => s.portState p == 2 || s.portState p == 4)

/-- The conditions of R310. -/
def State.admitOk (s : State) : Bool :=
  ((s.ctlFld 0x08 0 2 == 2 && s.ctlFld 0x08 2 1 == 1) || s.ctlFld 0x200008 4 1 == 1) &&
  s.sched.active.isNone && s.portsSettled && s.ctlFld 0x200000 1 1 == 1

/-- TRAINING_DONE. -/
def execTrainingDone (s : State) : Out :=
  if s.fabState = 1 ∧ s.fab.leaveAt = none ∧ s.portsSettled = true ∧ s.upPorts ≠ [] then
    let s1 := s.fabEnter 2
    .next { s1 with fab := { s1.fab with quiet := 0 } }
  else .next s

/-- ADMIT_ANNOUNCE: ADMIT is flooded for tick now + ADMIT_LEAD. -/
def execAdmitAnnounce (s : State) : Out :=
  if s.fabState = 2 ∧ s.ctlFld 0x200008 3 1 = 0 ∧ s.fab.leaveAt = none ∧ s.admitOk = true then
    let t := s.now + s.ctlFld 0x200028 9 5
    .next (((s.ctlPut 0x200008 3 1 1).ctlSet 0x200040 (word t)).floodOwn 0 0 t)
  else .next s

/-- Sends FLOW_OPEN: the context is OPENING, ATTEMPTS counts (R317). -/
def State.flowOpenSend (s : State) (f : Nat) : State :=
  let s1 := ((s.flowEnter f 2 (s.ctlFld (flowOff f 0) 6 4)).ctlCount (flowOff f 0) 10 8).modFlowX f (fun x => { x with sentAt := s.now, ownWait := false })
  s1.flowControl f 0x17 [s1.fabId, f]

/-- The device's own ADMIT at a boundary whose earlier changes are done: it enters ADMITTED, grants data credits, and opens the flows that waited; or LEAVE, where a condition fails (R309, R312). -/
def State.admitStep (s : State) : State :=
  if s.fabState ≠ 2 ∨ s.ctlFld 0x200008 3 1 = 0 then s
  else
    let t := s.ctlGet 0x200040
    if s.admitOk = false then (s.floodOwn 1 0 t.toNat).ctlPut 0x200008 3 1 0
    else if s.tickDue t = false then s
    else
      let s1 := ((s.ctlPut 0x200008 3 1 0).setMember s.fabId true).fabEvent 0
      let s2 := s1.fabEnter 3
      let s3 := (s2.upPorts.filter s2.routable).foldl (fun u p => u.grantData p) s2
      (s3.activeFlows.filter (fun f => (s3.flowX f).ownWait)).foldl (fun u f => u.flowOpenSend f) s3

/-- DRAIN_COMPLETE: every flow's OUTSTANDING is 0 and nothing is held, or DRAIN_LIMIT ticks have passed (R313). -/
def execDrainComplete (s : State) : Out :=
  let idle := s.activeFlows.all (fun f => s.flowOut f == 0 && (s.flowX f).held.isEmpty)
  let timeUp := s.fab.drainEnd.any (fun t => decide (t ≤ s.now))
  if s.fabState = 4 ∧ s.fab.leaveAt = none ∧ (idle = true ∨ timeUp = true) then
    let t := s.now + s.ctlFld 0x200028 9 5
    let s1 := (s.ctlSet 0x200040 (word t)).floodOwn 1 0 t
    .next { s1 with fab := { s1.fab with leaveAt := some t } }
  else .next s

/-- The device's own LEAVE, by drain: OUT_OF_SERVICE; for one tick the packets in its buffers go on, then its ports are idle (R309, R313). -/
def State.leaveStep (s : State) : State :=
  match s.fab.leaveAt with
  | none => s
  | some t =>
    if t ≤ s.now then
      let s1 : State := { s with fab := { s.fab with leaveAt := none, drainEnd := none, idleAt := some (s.now + 1) } }
      ((s1.setMember s1.fabId false).fabEvent 9).fabEnter 5
    else s

/-- SEED_TAKEOVER: a QUIET seed that heard no BEST for SEED_WAIT ticks takes the master role, or sets LOCK_PENDING while a schedule is active (R308, R41). -/
def execSeedTakeover (s : State) : Out :=
  if s.fabState = 2 ∧ s.ctlFld 0x200028 0 1 = 1 ∧ s.ctlFld 0x00 0 2 = 2 ∧ s.ctlFld 0x200008 4 1 = 0 ∧
      s.ctlFld 0x200028 1 8 ≤ s.fab.quiet then
    if s.sched.active.isSome then .next (s.ctlPut 0x08 5 1 1)
    else
      let s1 := s.ctlSet 0x08 (word (2 + 4 + 16))
      let s2 := ({ s1.ctlPut 0x200008 4 1 1 with syncMaster := some s1.fabId } : State).tickEvent 0
      .next ((s2.fabEvent 5).elect)
  else .next s

/-! ## The order at a tick boundary (R312) -/

/-- A notice takes effect at this boundary, or an earlier one. -/
def State.noticeDue (s : State) (e : BitVec 64 × Option Nat) : Bool :=
  match e.2 with | some t => decide (t ≤ s.now) | none => s.tickDue (noticeTick e.1)

/-- The notices of some kinds whose tick has come take effect. -/
def State.noticesOf (s : State) (kind : Nat → Bool) : State :=
  let due := s.fab.due.filter (fun e => s.noticeDue e && kind (noticeKind e.1))
  let s1 : State := { s with fab := { s.fab with due := s.fab.due.filter (fun e => !(s.noticeDue e && kind (noticeKind e.1))) } }
  due.foldl (fun t e => t.noticeEffect e.1) s1

/-- A port that left UP floods PORT_LOST for the next tick, and MASTER_LOST when its neighbour was the BEST (R308, R314). -/
def State.lostPort (s : State) (p : Nat) : State :=
  let x := s.portX p
  if x.leftUp = false then s
  else
    let s1 := (s.modPortX p (fun x => { x with leftUp := false, lostBest := false, best := none, nbrIn := false })).floodOwn 3 p (s.now + 1)
    let n := s.ctlFld (portOff p 0x10) 0 14
    (if x.lostBest then s1.flood (noticeOf n 2 0 (s.now + 1)) none else s1).elect

/-- Steps 1 to 3 of R312; after a fatal error there is no lock to lose and no port to report. -/
def State.boundaryLost (s : State) : State := (List.range 10).foldl (fun t p => t.lostPort p) s.lockGone
/-- Steps 1 to 4: LEAVE notices as well, the device's own among them. -/
def State.boundaryLeave (s : State) : State := ((s.boundaryLost.noticesOf (fun k => decide (2 ≤ k))).noticesOf (· == 1)).leaveStep
/-- Steps 1 to 5: ADMIT notices as well, the device's own among them. -/
def State.boundaryAdmit (s : State) : State := ((s.boundaryLeave.noticesOf (· == 0)).elect).admitStep

/-- NOTICE_EFFECT: the notices whose tick has come take effect, LEAVE before ADMIT, after what R312 puts before them. -/
def execNoticeEffect (s : State) : Out := .next (((s.boundaryLeave).noticesOf (· == 0)).elect)

/-- ADMIT_AT_TICK: the device enters ADMITTED at tick T, or floods LEAVE for T as soon as a condition fails. -/
def execAdmitAtTick (s : State) : Out :=
  if s.fabState ≠ 2 ∨ s.ctlFld 0x200008 3 1 = 0 then .next s
  else .next (if s.tickDue (s.ctlGet 0x200040) then s.boundaryAdmit else s.admitStep)

/-- LEAVE_AT_TICK: OUT_OF_SERVICE, by drain (R309, R313). -/
def execLeaveAtTick (s : State) : Out :=
  .next (if s.fab.leaveAt.any (fun t => decide (t ≤ s.now)) then s.boundaryLeave else s)

/-- Notices that will have taken effect by a tick decide whether the neighbour on a port is in. -/
def State.nbrInAt (s : State) (p t : Nat) : Bool :=
  let id := s.ctlFld (portOff p 0x10) 0 14
  let mine := (s.fab.due.filter (fun e => noticeOrigin e.1 == id && decide (noticeKind e.1 < 2) &&
    (match e.2 with
      | some u => decide (u ≤ t)
      | none => match s.tickAhead (noticeTick e.1) with | some d => decide (s.now + d ≤ t) | none => true))).map Prod.fst
  if mine.any (fun n => noticeKind n == 0) then true else if mine.isEmpty then (s.portX p).nbrIn else false

/-- The routes as they stand at a tick boundary (R301). -/
def State.routesAt (s : State) (t : Nat) : Nat :=
  (List.range 10).foldl (fun r p =>
    let back := match (s.portX p).rejoin with | none => true | some none => false | some (some d) => decide (d ≤ t)
    if s.portUsed p && s.portUp p && s.nbrInAt p t && back then r + 2 ^ p else r) 0

/-- FAB_ROUTE as it reads: ACTIVE, and NEXT as it will stand at the next boundary. -/
def State.fabRoute (s : State) : Word := word (s.ctlFld 0x200050 0 10 + s.routesAt (s.now + 1) * 2 ^ 10)

/-- ROUTE_UPDATE: at a boundary, after the changes that R312 puts before it, ACTIVE takes NEXT; newly routable ports get data credits; packets on a port that left are routed again, those of its slots wait (R301, R302, R304). -/
def State.routesTake (s : State) : State :=
  let old := s.ctlFld 0x200050 0 10
  let new := s.routesAt s.now
  let s1 : State := { s.ctlSet 0x200050 (word new) with fab := { s.fab with routeTick := s.now } }
  let s2 := (List.range 10).foldl (fun t p =>
    if new.testBit p && !old.testBit p then
      let u := t.modPortX p (fun x => { x with rejoin := none })
      if u.inFabric then u.grantData p else u
    else t) s1
  let s3 := (List.range 10).foldl (fun t p =>
    if old.testBit p && !new.testBit p then
      let away (e : OutPkt) : Bool := e.stays && !t.inSlots p e
      let q := (t.portX p).queue
      (q.filter away).foldl (fun u e => u.reroute e) (t.modPortX p (fun x => { x with queue := q.filter (fun e => !away e) }))
    else t) s2
  s3.linksGo

/-- Every used port is FAILED: the device's flows break, and it trains again (R309). -/
def State.allFailed (s : State) : State :=
  if s.inFabric ∧ s.usedPorts ≠ [] ∧ s.usedPorts.all (fun p => s.portState p == 4) = true then
    let s1 := s.activeFlows.foldl (fun t f => t.flowBreak f 7 true) s
    (s1.fabLeft).fabEnter 1
  else s

/-- ROUTE_UPDATE. -/
def execRouteUpdate (s : State) : Out :=
  if s.fab.routeTick = s.now then .next s else .next (s.boundaryAdmit.routesTake).allFailed

/-- PORT_LOST: a port that left UP is reported (R308, R314). -/
def execPortLost (p : Nat) (s : State) : Out :=
  if (s.portX p).leftUp = false then .next s else .next (s.lockGone.lostPort p)

/-! ## Flow contexts (R311, R316–R318) -/

/-- RETRY_AFTER for a requester (R311). -/
def State.retryAfter (s : State) (src : Nat) : Nat :=
  let base := if s.ctlFld 0x200008 3 1 = 1 then (s.ctlGet 0x200040 - word s.now).toNat else s.ctlFld 0x200028 14 8
  base + src % (s.ctlFld 0x200028 22 4)

/-- Answers a control packet with NOT_ADMITTED, within REFUSE_BUDGET. -/
def State.refuse (s : State) (src sflow dflow : Nat) : State :=
  if s.fab.refusals < s.ctlFld 0x200030 0 12 then
    let s1 : State := { s with fab := { s.fab with refusals := s.fab.refusals + 1 } }
    s1.controlTo 0x1A src sflow dflow 0 (bytesOf (s.retryAfter src) 2)
  else s.fabEvent 6

/-- A context enters OPEN with fresh sequence numbers, and waiting requests go. -/
def State.flowOpened (s : State) (f : Nat) : State := ((s.flowEnter f 4 0).ctlSet (flowOff f 0x10) 0#36).pump f

/-- A context waits in BACKOFF. -/
def State.flowBackoff (s : State) (f reason after : Nat) : State :=
  (s.flowEnter f 3 reason).ctlSet (flowOff f 0x20) (word (s.now + after))

/-- FLOW_OPEN: from context `sflow` of device `src` for context `f`. -/
def execFlowOpen (src sflow f : Nat) (s : State) : Out :=
  if s.inFabric = false then .next (s.refuse src sflow f)
  else if s.fabState = 4 then .next (s.controlTo 0x19 src sflow f 0 (3#8 :: bytesOf (s.ctlFld 0x200028 14 8) 2))
  else
    let st := s.flowState f
    let any_ := s.ctlFld (flowOff f 0) 5 1 = 1
    if (st = 1 ∨ st = 2) ∧ s.flowDev f = src ∧ (any_ ∨ s.flowPeer f = sflow) then
      let s1 := if any_ then s.ctlPut (flowOff f 8) 14 14 sflow else s
      .next ((s1.controlTo 0x18 src sflow f 0 []).flowOpened f)
    else .next (s.controlTo 0x19 src sflow f 0 (2#8 :: bytesOf (s.ctlFld 0x200028 14 8) 2))

/-- FLOW_ACCEPT. -/
def execFlowAccept (src sflow f : Nat) (s : State) : Out :=
  if s.inFabric = false then .next (s.refuse src sflow f)
  else if s.flowState f = 2 ∧ s.flowDev f = src ∧ s.flowPeer f = sflow then .next (s.flowOpened f) else .next s

/-- FLOW_REFUSE: reason and RETRY_AFTER. -/
def execFlowRefuse (src f reason after : Nat) (s : State) : Out :=
  if s.inFabric = false then .next (s.refuse src (s.flowPeer f) f)
  else if s.flowState f = 2 ∧ s.flowDev f = src then .next (s.flowBackoff f (reason % 16) after) else .next s

/-- NOT_ADMITTED: the requesting flow waits in BACKOFF with reason 1. -/
def execNotAdmitted (src f after : Nat) (s : State) : Out :=
  if s.inFabric = false then .next (s.refuse src (s.flowPeer f) f)
  else if s.flowState f = 2 ∧ s.flowDev f = src then .next (s.flowBackoff f 1 after) else .next s

/-- FLOW_CLOSE: an open context is BROKEN with reason 8; a closing one is FREE. -/
def execFlowClose (src f : Nat) (s : State) : Out :=
  if s.inFabric = false then .next (s.refuse src (s.flowPeer f) f)
  else if s.flowDev f ≠ src then .next s
  else if s.flowState f = 5 then .next ((s.flowEnter f 0 0).flowFailAll f)
  else .next (s.flowBreak f 8 false)

/-- UNREACHABLE from a device, for a packet of a flow: the sending flow breaks with reason 4 (R303, R318). -/
def execUnreachable (k : Nat × FlowSeq) (s : State) : Out :=
  if s.inFabric = false then .next (s.refuse k.1 0 k.2.flow) else .next (s.flowBreak k.2.flow 4 true)

/-- ROUTE_AT: the tick at which the retrained link enters the routes (R301). -/
def execRouteAt (p tick : Nat) (s : State) : Out :=
  if s.inFabric = false then .next (s.refuse (s.ctlFld (portOff p 0x10) 0 14) 0 0)
  else if (s.portX p).rejoin.isNone then .next s
  else .next (s.modPortX p (fun x => { x with rejoin := some (some (match s.tickAhead (word tick) with | some d => s.now + d | none => s.now)) }))

/-- FLOW_CLOSE_DRAINED. -/
def execFlowCloseDrained (f : Nat) (s : State) : Out :=
  if s.flowState f = 5 ∧ s.flowOut f = 0 then .next ((s.flowControl f 0x1B [0]).flowEnter f 0 0) else .next s

/-- BACKOFF_EXPIRY. -/
def execBackoffExpiry (f : Nat) (s : State) : Out :=
  if s.flowState f = 3 ∧ (s.flowX f).ownWait = false ∧ s.tickDue (s.ctlGet (flowOff f 0x20)) = true then .next (s.flowOpenSend f) else .next s

/-- OPEN_TIMEOUT: BACKOFF with reason 9, for min(2^ATTEMPTS, 64) ticks. -/
def execOpenTimeout (f : Nat) (s : State) : Out :=
  if s.flowState f = 2 ∧ (s.flowX f).sentAt + s.ctlFld 0x200030 24 4 ≤ s.now then
    .next (s.flowBackoff f 9 (min (2 ^ s.ctlFld (flowOff f 0) 10 8) 64))
  else .next s

/-- REORDER_TIMEOUT: the missing packet did not arrive in time (R318). -/
def execReorderTimeout (f : Nat) (s : State) : Out :=
  if (s.flowX f).held ≠ [] then .next (s.flowBreak f 5 true) else .next s

/-- One operation of FAB_FLOW_CMD: 1 LISTEN, 2 OPEN, 3 CLOSE, 4 RESET (R317). -/
def State.flowCmd (s : State) (f op : Nat) : State :=
  let st := s.flowState f
  if op = 1 then (if st = 0 then (s.flowEnter f 1 0).ctlPut (flowOff f 0) 10 8 0 else s)
  else if op = 2 then
    if st ≠ 0 then s
    else
      let s1 := s.ctlPut (flowOff f 0) 10 8 0
      if s1.fabState = 3 then s1.flowOpenSend f
      else (s1.flowEnter f 3 1).modFlowX f (fun x => { x with ownWait := true })
  else if op = 3 then
    if st = 1 ∨ st = 2 ∨ st = 3 ∨ st = 4 then
      (if s.flowOut f = 0 then ((s.flowControl f 0x1B [0]).flowEnter f 0 0).modFlowX f (fun _ => {}) else s.flowEnter f 5 0)
    else s
  else if op = 4 then
    let s1 := ((s.dropQueued f).flowEnter f 0 0).modFlowX f (fun _ => {})
    ((s1.ctlPut (flowOff f 0x18) 26 10 0).flowFailAll f).pumpAll
  else s

/-- A write of FAB_FLOW_CMD. -/
def State.flowCmdWrite (s : State) (v : Word) : State := s.flowCmd (fld v 0 14) (fld v 14 3)

/-- At each tick: refusal, flood and beacon budgets start again, waiting notices go, notices older than 64 ticks are forgotten, a beacon goes out on every UP port, and every 1,024 ticks the link delays are measured again (R39, R305, R307, R308, R311) (DESIGN CHOICE, log 2). -/
def State.fabTick (s : State) : State :=
  let s1 : State := { s with fab := { s.fab with
    refusals := 0, quiet := s.fab.quiet + 1, seen := s.fab.seen.filter (fun e => decide (s.now < e.2 + 64)) } }
  let s2 := s1.usedPorts.foldl (fun t p =>
    let t1 := t.modPortX p (fun x => { x with floods := 0, beacons := 0 })
    if (t1.portX p).backlog.isEmpty then t1 else t1.floodSend p []) s1
  let s3 := s2.electCore
  let s4 := if s3.fabState = 2 ∨ s3.fabState = 3 ∨ s3.fabState = 4 then s3.upPorts.foldl (fun t p => t.beacon p) s3 else s3
  if s4.now % 1024 = 0 then s4.upPorts.foldl (fun t p => (t.modPortX p (fun x => { x with probes := [] })).probe p) s4 else s4

/-- A seed master that must drop the role leaves lock at the boundary (R308, R43) (DEDUCED, log 54). -/
def State.seedDropTick (s : State) : State :=
  if s.fab.seedDrop then ({ s with fab := { s.fab with seedDrop := false } } : State).loseLock else s

/-- The fabric under a fatal error: every port idle at once, OUT_OF_SERVICE (R309). -/
def State.fabFatal (s : State) : State :=
  let s1 := s.fabLeft
  ({ s1 with fab := { s1.fab with leaveAt := none, drainEnd := none, idleAt := some s1.now } } : State).ctlPut 0x200008 0 3 5

end Sys2Proof.Machine
end

