-- ==== Sys2Proof/Machine/Eph.lean ====
section
/-!
DEFINITION. The Ephemeris controller, the lineage table, recovery (R379–R394, R425, R426).
-/
namespace Sys2Proof.Machine

/-- EPH_STATUS.MODE: 0 off, 1 record, 2 replay. -/
def State.ephMode (s : State) : Nat := s.ctlFld 0x60008 0 2
/-- EPH_STATUS.OPEN. -/
def State.ephOpen (s : State) : Bool := s.ctlFld 0x60008 2 1 == 1
/-- Changes what the controller holds besides its registers. -/
def State.modEph (s : State) (f : EphX → EphX) : State := { s with eph := f s.eph }

/-! ## Reading the ring -/

/-- TYPE, WORDS, STEP and ATTEMPT of the entry at a ring offset. -/
def State.entryAt (s : State) (off : Nat) : Nat × Nat × Nat × Nat :=
  let w0 := s.wordAt (s.ringBase + off)
  let w1 := s.wordAt (s.ringBase + off + 8)
  (fld w0 0 8, fld w0 8 20, fld w1 0 16, fld w1 16 8)

/-- Offset of the entry after the one at an offset; a WRAP leads to 0. -/
def State.entryNext (s : State) (off : Nat) : Nat :=
  let (t, n, _, _) := s.entryAt off
  if t = 0x0F then 0 else (off + (16 + 8 * n + 15) / 16 * 16) % ringSize

/-- Bound on the entries that a search of the ring visits. -/
def ringFuel : Nat := 1000000

/-- The offset of the `k`-th entry of a type at or after an offset, up to the write position; `stop` ends the search early. -/
def State.entryFind (s : State) (typ stop : Nat) (off k : Nat) : Nat → Option Nat
  | 0 => none
  | n + 1 =>
    if off = s.ctlFld 0x60018 0 33 then none
    else
      let t := (s.entryAt off).1
      if t = 0 then none
      else if t = typ then (if k = 0 then some off else s.entryFind typ stop (s.entryNext off) (k - 1) n)
      else if t = stop then none
      else s.entryFind typ stop (s.entryNext off) k n

/-- Payload word `i` of the entry at an offset. -/
def State.entryWord (s : State) (off i : Nat) : Word := s.wordAt (s.ringBase + off + 16 + 8 * i)

/-! ## Seeds (R288, R390) -/

/-- SEEDS: three words for each enabled core. -/
def State.seedWords (s : State) : List Word :=
  (List.range s.variant.cores).flatMap (fun c => [0x2D, 0x2E, 0x2F].map (fun n => (s.core c).getMreg n))

/-- Channels that are present. -/
def State.channels (s : State) : List Nat := (List.range 256).filter (dmaPresent s.variant)

/-- GENS: three words for each present channel. -/
def State.genWords (s : State) : List Word :=
  s.channels.flatMap (fun q => [0x88, 0x90, 0x98].map (fun r => s.ctlGet (dmaOff q r)))

/-- Writes the generators of every core and channel from a record's SEEDS and GENS entries. -/
def State.restoreSeeds (s : State) (start : Nat) : State :=
  match s.entryFind 0x02 0x09 start 0 16, s.entryFind 0x03 0x09 start 0 16 with
  | some a, some b =>
    let s1 := (List.range s.variant.cores).foldl (fun t c => t.modCore c (fun k =>
      ((k.setMreg 0x2D (s.entryWord a (3 * c))).setMreg 0x2E (s.entryWord a (3 * c + 1) &&& maskOf 36 0 28)).setMreg 0x2F (s.entryWord a (3 * c + 2)))) s
    (s.channels.zip (List.range s.channels.length)).foldl (fun t e =>
      ((t.ctlSet (dmaOff e.1 0x88) (s.entryWord b (3 * e.2))).ctlSet (dmaOff e.1 0x90) (s.entryWord b (3 * e.2 + 1) &&& maskOf 36 0 28)).ctlSet
        (dmaOff e.1 0x98) (s.entryWord b (3 * e.2 + 2))) s1
  | _, _ => s

/-! ## Records (R382, R389–R392, R425, R426) -/

/-- A write of EPH_OPEN: ignored in off mode, without GO, while a record is open or an earlier one waits. -/
def State.ephOpenWrite (s : State) (v : Word) : State :=
  if s.ephMode = 0 ∨ bitAt v 16 = false ∨ s.ephOpen = true ∨ s.eph.openReq.isSome then s
  else s.modEph (fun x => { x with openReq := some (fld v 0 16, s.now) })

/-- A write of EPH_COMMIT: accepted for a later tick while a record is open. -/
def State.ephCommitWrite (s : State) (v : Word) : State :=
  match s.tickAhead v with
  | some d =>
    if s.ephMode ≠ 0 ∧ s.ephOpen = true ∧ d ≠ 0 ∧ s.eph.openTick < s.now + d then
      (s.ctlSet 0x60030 v).modEph (fun x => { x with commitAt := some (s.now + d) })
    else s
  | none => s

/-- Opens a record in record mode; a rerun of the rolled-back step takes ATTEMPT + 1 and its seeds. -/
def State.openRecord (s : State) (step : Nat) : State :=
  let again := s.eph.rolledBack && s.ctlFld 0x60008 5 16 == step
  let attempt := if again then (s.ctlFld 0x60008 21 8 + 1) % 256 else 0
  let s1 := if again then s.restoreSeeds s.eph.start else s
  let s2 := (((s1.ctlPut 0x60008 2 1 1).ctlPut 0x60008 5 16 step).ctlPut 0x60008 21 8 attempt).modEph (fun x => { x with
    openTick := s1.now, commitAt := none, incomplete := false, expired := false, rolledBack := false
    detached := false, cdig := s1.ctlFld 0x60000 3 1 == 1 })
  let s3 := s2.ephAppend 0x01 [word s2.now, word (s2.now / 2 ^ 36), word (1 + s2.fabId * 4), 0#36]
  let s4 := s3.modEph (fun x => { x with start := (s3.ctlFld 0x60018 0 33 + ringSize - 48) % ringSize })
  (s4.ephAppend 0x02 s4.seedWords).ephAppend 0x03 s4.genWords

/-- Opens a record in replay mode: EPH_RP must name a STEP_OPEN of the step. -/
def State.openReplay (s : State) (step : Nat) : State :=
  let rp := s.ctlFld 0x60070 0 33
  let (t, _, st, at_) := s.entryAt rp
  if t = 0x01 ∧ st = step then
    let s1 := s.restoreSeeds rp
    (((s1.ctlPut 0x60008 2 1 1).ctlPut 0x60008 5 16 step).ctlPut 0x60008 21 8 at_).modEph (fun x => { x with
      openTick := s1.now, commitAt := none, incomplete := false, expired := false, rolledBack := false
      detached := s1.ctlFld 0x60000 2 1 == 1, cdig := s1.ctlFld 0x60000 3 1 == 1, start := rp, digests := 0 })
  else s.ephEvent 16

/-- RECORD_OPEN: at the boundary after EPH_OPEN (R382, R390, R394, R426). -/
def execRecordOpen (s : State) : Out :=
  match s.eph.openReq with
  | none => .next s
  | some (step, t) =>
    if s.now ≤ t then .next s
    else
      let s1 := s.modEph (fun x => { x with openReq := none })
      if s1.ephMode = 0 ∨ s1.ctlFld 0x60010 14 1 = 0 then .next s1
      else if s1.ephMode = 1 then .next (s1.openRecord step)
      else
        let tick := s1.ctlFld 0x08 0 2
        if (s1.ctlFld 0x60000 2 1 = 1 ∧ tick = 0) ∨ (s1.ctlFld 0x60000 2 1 = 0 ∧ tick = 2) then .next (s1.openReplay step)
        else .next (s1.ephEvent 16)

/-- Closes the open record: 0 committed, 1 rolled back, 2 incomplete, 3 outside the promise. -/
def State.closeRecord (s : State) (status : Nat) : State :=
  let s1 := (s.ephAppend 0x09 [word s.now, word status]).ctlPut 0x60008 2 1 0
  let s2 := s1.modEph (fun x => { x with commitAt := none, expired := false, rolledBack := status == 1 })
  if s2.ephMode = 2 then
    match s2.entryFind 0x01 0 (s2.entryNext s2.eph.start) 0 ringFuel with
    | some o => s2.ctlPut 0x60070 0 33 o
    | none => s2.ctlPut 0x60070 0 33 (s2.ctlFld 0x60018 0 33)
  else s2

/-- STEP_COMMIT: at the commit tick the record closes, or COMMIT_HELD is set while recovery is active. -/
def execStepCommit (s : State) : Out :=
  match s.eph.commitAt with
  | none => .next s
  | some t =>
    if s.now < t ∨ s.ephOpen = false then .next s
    else if s.ctlFld 0x60058 0 1 = 1 then .next ((s.modEph (fun x => { x with commitAt := none })).ephEvent 4)
    else .next (s.closeRecord (if s.eph.incomplete then 2 else if s.eph.expired then 3 else 0))

/-- EPH_MODE_CHANGE: the requested mode takes effect at a boundary at which no record is open; it sets the engine's order (R339, R389). -/
def execEphModeChange (s : State) : Out :=
  if s.ephOpen then .next s
  else
    let m := s.ctlFld 0x60000 0 2
    .next ((s.ctlPut 0x60008 0 2 m).ctlPut 0x70008 7 2 m)

/-! ## Digests and notes (R381, R393) -/

/-- A write of EPH_DIG_LEN. -/
def State.ephDigLen (s : State) (v : Word) : State :=
  let n := fld v 0 24
  if n = 0 ∨ n % 8 ≠ 0 then s
  else if s.ctlFld 0x60008 3 1 = 1 then s.ephEvent 32
  else
    let a := localOf (mkPair (s.ctlGet 0x60040) (s.ctlGet 0x60038))
    (s.ctlPut 0x60008 3 1 1).modEph (fun x => { x with digest := some (a, n, if s.ephOpen then s.eph.openTick + 1 else 0) })

/-- DIGEST_COMPLETE: a DIGEST entry, or under replay a comparison with the recorded digest in the same position. -/
def execDigestComplete (s : State) : Out :=
  match s.eph.digest with
  | none => .next s
  | some (a, n, t) =>
    let s1 := (s.ctlPut 0x60008 3 1 0).modEph (fun x => { x with digest := none })
    if s1.ephOpen = false ∨ t ≠ s1.eph.openTick + 1 then .next (s1.ephEvent 32)
    else
      match s1.readErr a n with
      | some src => .next ((s1.memFail src a).ephEvent 32)
      | none =>
        let d := digestWords (shake256 (s1.bytesAt a n) 32)
        if s1.ephMode = 2 then
          let s2 := s1.modEph (fun x => { x with digests := x.digests + 1 })
          match s1.entryFind 0x04 0x09 s1.eph.start s1.eph.digests ringFuel with
          | some o => .next (if (List.range 8).map (fun i => s1.entryWord o (3 + i)) = d then s2 else s2.ephEvent 16)
          | none => .next (s2.ephEvent 16)
        else .next (s1.ephAppend 0x04 ([lo36 (selfPair a), hi36 (selfPair a), word n] ++ d))

/-- A write of EPH_NOTE. -/
def State.ephNote (s : State) (v : Word) : State :=
  if fld v 12 2 = 3 then s
  else if s.ephOpen = false then s.ephEvent 32
  else s.ephAppend 0x06 [v &&& maskOf 36 0 14, word s.now]

/-! ## Recovery (R388) -/

/-- A write of EPH_RECOV. -/
def State.ephRecov (s : State) (v : Word) : State :=
  let old := s.ctlGet 0x60058
  let new := (ctlMap s.variant 0x60058).writeVal false old v
  let s1 := s.ctlSet 0x60058 new
  if bitAt old 0 = false ∧ bitAt new 0 = true then
    (s1.ctlPut 0x60058 21 15 0).modEph (fun x => { x with recovTicks := 0, expiredDone := false })
  else s1

/-- At each tick ELAPSED counts while ACTIVE is 1. -/
def State.ephTick (s : State) : State :=
  if s.ctlFld 0x60058 0 1 = 1 then (s.ctlCount 0x60058 21 15).modEph (fun x => { x with recovTicks := x.recovTicks + 1 }) else s

/-- BUDGET_EXPIRED: the open record will close with status 3. -/
def execBudgetExpired (s : State) : Out :=
  if s.ctlFld 0x60058 0 1 = 1 ∧ s.eph.expiredDone = false ∧ s.ctlFld 0x60058 1 20 ≤ s.eph.recovTicks then
    .next ((s.modEph (fun x => { x with expiredDone := true, expired := true })).ephEvent 8)
  else .next s

/-! ## The lineage table (R379, R380) -/

/-- Window offset of LIN_FIND of core `n`. -/
def linOff (n : Nat) : Nat := 0x61000 + 16 * n

/-- A write of LIN_FIND by the core it belongs to, or by Alidade, starts a search. -/
def State.linFind (s : State) (n : Nat) (v : Word) : State :=
  (s.ctlSet (linOff n) (v &&& maskOf 36 0 32)).modEph (fun x => { x with searches := if x.searches.contains n then x.searches else x.searches ++ [n] })

/-- Entries of the lineage table that hold PA[43:12]. -/
def State.linHits (s : State) (pa : Nat) : List Nat :=
  ((s.ctl.filter (fun e => decide (0x40000 ≤ e.1) && decide (e.1 < 0x60000) && e.1 % 32 == 8 && bitAt e.2 24)).map
    (fun e => (e.1 - 0x40000) / 32)).filter (fun i =>
      let b := s.ctlFld (0x40000 + 32 * i) 0 32
      decide (b ≤ pa) && decide (pa < b + s.ctlFld (0x40008 + 32 * i) 0 24))

/-- A search ends: INDEX, HIT and MULTI. -/
def State.linDone (s : State) (n : Nat) : State :=
  if s.eph.searches.contains n then
    let w := match s.linHits (s.ctlFld (linOff n) 0 32) with
      | [] => 0#36
      | i :: r => word (i + 2 ^ 12 + flag (!r.isEmpty) 13)
    (s.ctlSet (linOff n + 8) w).modEph (fun x => { x with searches := x.searches.erase n })
  else s

/-- LINEAGE_SEARCH_COMPLETE. -/
def execLineageSearchComplete (n : Nat) (s : State) : Out := .next (s.linDone n)

end Sys2Proof.Machine
end

