-- ==== Sys2Proof/Machine/Coll.lean ====
section
/-!
DEFINITION. The collective engine (R322–R351, R394): groups, packets, local contributions, the ring reduction, gathers and exchanges, and completion. The commands stand in CollRun.
-/
namespace Sys2Proof.Machine

/-! ## Registers and records -/

/-- Window offset of a register of queue `q`. -/
def ceOff (q r : Nat) : Nat := 0x70400 + q * 0x80 + r
/-- Window offset of a register of group `g`. -/
def cgOff (g r : Nat) : Nat := 0x71000 + g * 0x40 + r
/-- Window offset of a register of shard `n`. -/
def shOff (n r : Nat) : Nat := 0x78000 + n * 0x40 + r
/-- Changes what the engine holds. -/
def State.modCe (s : State) (f : CeX → CeX) : State := { s with ce := f s.ce }
/-- What the engine keeps of a group. -/
def State.ceGroup (s : State) (g : Nat) : CeGroup := Tbl.get {} s.ce.groups g
/-- Changes what the engine keeps of a group. -/
def State.modGroup (s : State) (g : Nat) (f : CeGroup → CeGroup) : State :=
  s.modCe (fun x => { x with groups := Tbl.modify {} x.groups g f })

/-- OP. -/
def CeBucket.op (c : CeBucket) : Nat := fld c.ctrl 0 4
/-- The operation is a reduction. -/
def CeBucket.reduces (c : CeBucket) : Bool := c.op == 1 || c.op == 3
/-- EPOCHED. -/
def CeBucket.epoched (c : CeBucket) : Bool := bitAt c.hdr 7
/-- Parts of the local contribution. -/
def CeBucket.parts (c : CeBucket) : Nat := fld c.hdr 0 6 + 1
/-- SFMT. -/
def CeBucket.sfmt (c : CeBucket) : Nat := fld c.fmt 0 5
/-- DFMT. -/
def CeBucket.dfmt (c : CeBucket) : Nat := fld c.fmt 5 5
/-- Blocks of the bucket. -/
def CeBucket.nblk (c : CeBucket) : Nat := c.segs.sum
/-- Bytes that a unit of `segs` takes at DST. -/
def CeBucket.unit (c : CeBucket) : Nat := if c.epoched || c.op == 4 || c.op == 5 then 1 else blockBytes c.dfmt
/-- The bucket has ended without its regular end, and nothing it would still write is written: every STATUS but that of a DST fault (R343, R346). -/
def CeBucket.over (c : CeBucket) : Bool := c.status.any (fun n => decide (n < 5))
/-- The bucket's group, bucket id and STEP. -/
def CeBucket.isFor (c : CeBucket) (g b st : Nat) : Bool := c.group == g && c.bucket == b && c.step == st

/-- The oldest bucket of a group, id and STEP that has not been completed. -/
def State.ceFind (s : State) (g b st : Nat) : Option CeBucket := s.ce.buckets.find? (fun c => c.isFor g b st)
/-- Stores a bucket under its number. -/
def State.cePut (s : State) (c : CeBucket) : State :=
  s.modCe (fun x => { x with buckets := x.buckets.map (fun d => if d.id = c.id then c else d) })

/-! ## Groups and ranks (R322–R324, R347) -/

/-- The place of a device in a group, and the segments of a bucket. -/
structure Geo where
  axes : List Nat
  lens : List Nat
  rank : Nat
  segs : List Nat

/-- Ranks that share the digits up to `i`. -/
def Geo.below (g : Geo) (i : Nat) : Nat := (g.lens.drop (i + 1)).foldl (· * ·) 1
/-- Digit `i` of a rank. -/
def Geo.digit (g : Geo) (i r : Nat) : Nat := r / g.below i % g.lens.getD i 1
/-- Members. -/
def Geo.size (g : Geo) : Nat := g.lens.foldl (· * ·) 1
/-- First unit of the segment of a rank. -/
def Geo.segLo (g : Geo) (r : Nat) : Nat := (g.segs.take r).sum
/-- Rank whose segment holds unit `b`. -/
def Geo.owner (g : Geo) (b : Nat) : Nat := ((List.range g.size).find? (fun r => decide (b < g.segLo (r + 1)))).getD 0
/-- The part that this device still holds before axis step `i` contains unit `b`. -/
def Geo.held (g : Geo) (i b : Nat) : Bool := (List.range i).all (fun j => g.digit j (g.owner b) == g.digit j g.rank)
/-- Units of the part held before axis step `i`. -/
def Geo.heldUnits (g : Geo) (i : Nat) : Nat :=
  let p := if i = 0 then g.size else g.below (i - 1)
  g.segLo (g.rank / p * p + p) - g.segLo (g.rank / p * p)
/-- On axis step `i` unit `b` travels in the − direction: it lies in the second half of its sub-segment (R326). -/
def Geo.minus (g : Geo) (i b : Nat) : Bool :=
  let p := g.below i
  let r0 := g.owner b / p * p
  decide (ceilDiv (g.segLo (r0 + p) - g.segLo r0) 2 ≤ b - g.segLo r0)
/-- The position at which unit `b` starts on axis step `i`. -/
def Geo.start (g : Geo) (i b : Nat) : Nat :=
  let l := g.lens.getD i 1
  let k := g.digit i (g.owner b)
  if g.minus i b then (k + l - 1) % l else (k + 1) % l

/-- Axes of group `g`. -/
def State.cgAxes (s : State) (g : Nat) : List Nat := (List.range 5).filter (fun a => bitAt (s.ctlGet (cgOff g 0)) a)
/-- The geometry of a group with given segments. -/
def State.geo (s : State) (g : Nat) (segs : List Nat) : Geo :=
  let axes := s.cgAxes g
  { axes := axes, lens := axes.map (axisLen s.shape), segs := segs
    rank := axes.foldl (fun r a => r * axisLen s.shape a + coordOf s.coord a) 0 }
/-- FLOWBASE. -/
def State.cgFlow (s : State) (g : Nat) : Nat := s.ctlFld (cgOff g 0) 12 14
/-- The flow of group `g` toward a neighbour on an axis. -/
def State.axisFlow (s : State) (g a : Nat) (minus : Bool) : Nat := s.cgFlow g + 2 * a + (if minus then 1 else 0)
/-- The group's flows. -/
def State.cgFlows (s : State) (g : Nat) : List Nat := (s.cgAxes g).flatMap (fun a => [s.axisFlow g a false, s.axisFlow g a true])
/-- Every flow of the group is OPEN. -/
def State.cgOpen (s : State) (g : Nat) : Bool := (s.cgFlows g).all (fun f => s.flowState f == 4)
/-- A flow of the group is BROKEN or FREE. -/
def State.cgLost (s : State) (g : Nat) : Bool := (s.cgFlows g).any (fun f => s.flowState f == 6 || s.flowState f == 0)

/-- CG_STATE as it reads. -/
def State.cgState (s : State) (g : Nat) : Word :=
  let o := s.geo g []
  word (o.size % 2 ^ 13 + o.rank % 2 ^ 12 * 2 ^ 13 + (s.ceGroup g).hist.length * 2 ^ 25)

/-- CG_ACTIVE.DL (R341). -/
def State.cgDeadline (s : State) (g : Nat) : Nat :=
  let w := s.ctlGet (cgOff g 8)
  let h := (s.ceGroup g).hist
  if s.ctlFld (cgOff g 0) 9 1 = 0 ∨ h.length < 16 then fld w 0 16
  else min (fld w 16 16) (h.foldl max 0 + fld w 32 4)

/-- A write of CG_CFG: AXES of an unused axis, or of more than 4,096 members, is a reserved encoding; the write clears the history. -/
def State.cgCfg (s : State) (g : Nat) (v : Word) : State :=
  let ax := (List.range 5).filter (fun a => bitAt v a)
  let ok := ax.all (axisUsed s.shape) && decide (ax.foldl (fun p a => p * axisLen s.shape a) 1 ≤ 4096)
  let o := cgOff g 0
  let w := (ctlMap s.variant o).writeVal false (s.ctlGet o) (if ok then v else setFld v 0 5 (s.ctlFld o 0 5))
  (s.ctlSet o w).modGroup g (fun x => { x with hist := [], cur := none })

/-- B units divided among `n` ranks in rank order (R347). -/
def evenSegs (b n : Nat) : List Nat := (List.range n).map (fun r => b / n + (if r < b % n then 1 else 0))

/-! ## Packets (R324, R332, R336) -/

/-- The 16 bytes of a collective header. -/
def collBytes (sub nblk : Nat) (h : CollHdr) : List Byte :=
  bytesOf (sub % 16 + h.group % 64 * 2 ^ 4 + h.bucket % 4096 * 2 ^ 10 + h.step % 65536 * 2 ^ 22 + h.srcrank % 4096 * 2 ^ 38 +
    h.dstrank % 4096 * 2 ^ 50 + h.offset % 2 ^ 36 * 2 ^ 62 + nblk % 64 * 2 ^ 98 + flag h.minus 104) 16

/-- Bytes of a packet's body. -/
def CeSend.bytesLen (p : CeSend) : Nat := 16 + 104 * p.blocks.length + p.bytes.length
/-- Bytes of the retention buffer in use: packets without their ACK, and the own segment's blocks of buckets that have not begun (R342) (DEDUCED, log 35). -/
def State.ceRetained (s : State) : Nat :=
  (s.ce.retain.map CeSend.bytesLen).sum +
    ((s.ce.buckets.filter (fun c => !c.begun)).map (fun c =>
      104 * (c.vals.filter (fun (e : Nat × CBlock) => e.1 / 2 ^ 25 == (s.cgAxes c.group).length)).length)).sum
/-- Bytes of the retention buffer. -/
def retainMax : Nat := 8 * 2 ^ 20

/-- The KIND of the transmit slots in which a packet goes, where its group is SLOTTED and its flow one of the group's (R324). -/
def State.ceKind (s : State) (p : CeSend) : Option Nat :=
  if s.ctlFld (cgOff p.hdr.group 0) 11 1 = 1 ∧ (s.cgFlows p.hdr.group).contains p.flow = true then some (if p.sub = 0 then 0 else 1) else none

/-- The flow takes a collective packet now. -/
def State.ceFlowOk (s : State) (p : CeSend) : Bool := s.flowState p.flow == 4 && s.inFabric

/-- Sends a packet on its flow: the engine is router input 10 and agent 448 (R349). -/
def State.ceEmit (s : State) (p : CeSend) : State :=
  (s.flowSend p.flow 5 (collBytes p.sub p.blocks.length p.hdr ++ p.blocks.flatMap CBlock.bytes ++ p.bytes) 10 (some 448) (s.ceKind p)).2

/-- Sends the waiting packets that can go, in order on each flow; BLOCKS packets enter the retention buffer (R336). -/
def State.cePump (s : State) : State :=
  let r := s.ce.unsent.foldl (fun (acc : State × List CeSend) p =>
    let (t, rest) := acc
    if rest.any (fun q => q.flow == p.flow) || !t.ceFlowOk p then (t, rest ++ [p])
    else if p.sub = 0 then
      if retainMax < t.ceRetained + p.bytesLen then ((t.ctlPut 0x70008 9 1 1).ceEvent 5, rest ++ [p])
      else ((t.ceEmit p).modCe (fun x => { x with retain := x.retain ++ [p] }), rest)
    else (t.ceEmit p, rest)) (s.modCe (fun x => { x with unsent := [] }), [])
  r.1.modCe (fun x => { x with unsent := r.2 })

/-- Queues packets and sends what can go. -/
def State.cePush (s : State) (l : List CeSend) : State :=
  if l.isEmpty then s else (s.modCe (fun x => { x with unsent := x.unsent ++ l })).cePump

/-- A packet belongs to a bucket. -/
def CeSend.isOf (p : CeSend) (g b st : Nat) : Bool := p.hdr.group == g && p.hdr.bucket == b && p.hdr.step == st

/-- RETAIN_FULL reads 1 while the buffer is full; packets that wait for room go (R336). -/
def State.ceRoom (s : State) : State := (s.ctlPut 0x70008 9 1 0).cePump

/-- Every packet of a bucket is given up, and its room goes to those that wait. -/
def State.ceDrop (s : State) (g b st : Nat) : State :=
  (s.modCe (fun x => { x with unsent := x.unsent.filter (fun p => !p.isOf g b st), retain := x.retain.filter (fun p => !p.isOf g b st) })).ceRoom

/-- Runs of consecutive blocks on one flow, at most 39 in a packet. -/
def packBlocks (hdr : CollHdr) (l : List (Nat × Bool × Nat × CBlock)) : List CeSend :=
  (l.foldl (fun (acc : List CeSend) e =>
    let (flow, minus, b, v) := e
    match acc.getLast? with
    | some p =>
      if p.flow = flow ∧ p.hdr.minus = minus ∧ p.hdr.offset + p.blocks.length = b ∧ p.blocks.length < 39 then
        acc.take (acc.length - 1) ++ [{ p with blocks := p.blocks ++ [v] }]
      else acc ++ [{ flow := flow, sub := 0, hdr := { hdr with offset := b, minus := minus }, blocks := [v] }]
    | none => [{ flow := flow, sub := 0, hdr := { hdr with offset := b, minus := minus }, blocks := [v] }]) [])

/-- The header of a bucket's packets. -/
def CeBucket.collHdr (c : CeBucket) (rank : Nat) : CollHdr := { group := c.group, bucket := c.bucket, step := c.step, srcrank := rank }

/-! ## Memory at K (R327) -/

/-- Bytes at an address, at a level. -/
def State.readAt (s : State) (lvl : Nat) (a : Pair) (n : Nat) : Except XErr (List Byte) :=
  (pieces (a, n)).foldl (fun acc p => match acc with
    | .error e => .error e
    | .ok l => match s.plainAt lvl .read p.1 p.2 with
      | .error e => .error e
      | .ok pa => .ok (l ++ s.bytesAt pa p.2)) (.ok [])

/-- Bytes at an address of the engine. -/
def State.ceRead (s : State) (a : Pair) (n : Nat) : Except XErr (List Byte) := s.readAt 1 a n

/-- Words at an address of the engine. -/
def State.ceWords (s : State) (a : Pair) (n : Nat) : Except XErr (List Word) :=
  match s.ceRead a (8 * n) with
  | .error e => .error e
  | .ok l => .ok ((chunks 8 n l).map wordOfBytes)

/-- Writes bytes at an address of the engine, up to the first piece that fails. -/
def State.ceStore (s : State) (a : Pair) (l : List Byte) : State × Option XErr :=
  ((pieces (a, l.length)).foldl (fun (acc : (State × Option XErr) × List Byte) p => match acc.1.2 with
    | some _ => acc
    | none => match acc.1.1.plainAt 1 .write p.1 p.2 with
      | .error e => ((acc.1.1, some e), acc.2)
      | .ok pa => ((((acc.1.1.agentTouch (acc.1.1.homeDie pa) pa none none true).memPut pa (acc.2.take p.2)), none), acc.2.drop p.2)) ((s, none), l)).1

/-- STATUS of a record for an access error. -/
def ceStatus : XErr → Nat
  | .page _ _ => 5
  | .bus _ => 6
  | .mem _ _ => 7

/-- Writes destination bytes; a fault determines the bucket's status (R346). -/
def State.ceDst (s : State) (c : CeBucket) (a : Pair) (l : List Byte) : State × CeBucket :=
  if c.over then (s, c) else
  match s.ceStore a l with
  | (t, none) => (t, c)
  | (t, some e) => (t.noteErr e, { c with status := c.status.or (some (ceStatus e)) })

/-! ## The local contribution (R329, R333, R340) -/

/-- Address and READY of part `i`. -/
def State.cePart (s : State) (arg : Pair) (i : Nat) : Except XErr (Pair × Word) :=
  match s.ceWords (arg + BitVec.ofNat 72 (0x40 + 32 * i)) 3 with
  | .error e => .error e
  | .ok l => .ok (mkPair (l.getD 1 0#36) (l.getD 0 0#36), l.getD 2 0#36)

/-- The engine reads a part table at an increase of READY_SEM since its last read; its first read needs none (R329) (DESIGN CHOICE, log 35). -/
def State.ceNews (s : State) (sem : Nat) (seen : Option Nat) : Bool := seen != some (Tbl.get 0 s.semUps sem)

/-- The parts of a table that are ready for a STEP and not yet taken, in ascending order. -/
def State.ceReady (s : State) (arg : Pair) (parts step : Nat) (taken : List Nat) : List Nat :=
  (List.range parts).filter (fun i => !taken.contains i &&
    (match s.cePart arg i with | .ok (_, r) => r == word step | .error _ => false))

/-- The blocks that a list of parts forms; a part that cannot be read faults. -/
def State.ceForm (s : State) (arg : Pair) (taken : List Nat) (nblk exp0 code : Nat) : Except XErr (List CBlock) :=
  let size := blockBytes code
  let bases := taken.foldl (fun (acc : Except XErr (List (List Byte))) i => match acc with
    | .error e => .error e
    | .ok l => match s.cePart arg i with
      | .error e => .error e
      | .ok (a, _) => match s.ceRead a (nblk * size) with
        | .error e => .error e
        | .ok d => .ok (l ++ [d])) (.ok [])
  match bases with
  | .error e => .error e
  | .ok l => .ok ((List.range nblk).map (fun b => formBlock exp0 1 (l.map (fun d => blockValues code ((d.drop (b * size)).take size)))))

/-- A block with a carry's block added as a further part. -/
def addCarry (exp0 : Nat) (b k : CBlock) : CBlock :=
  let r := addPart (b.exp, b.ms, b.flags) k.values
  mkBlock exp0 r.1 (b.cnt + k.cnt) (r.2.2 ||| flCarried ||| (k.flags &&& (flNonfin + flRsat + flOvfl))) r.2.1

/-- The local blocks once the contribution stands: parts, copy or nothing, and the carry. -/
def CeBucket.local (c : CeBucket) : List CBlock :=
  let base := match c.contrib with
    | .onTime | .late => c.own.getD []
    | .backup => (List.range c.nblk).map (fun b => Tbl.get (zeroBlock c.exp0 0) c.copy b)
    | .absent => List.replicate c.nblk (zeroBlock c.exp0 0)
    | _ => List.replicate c.nblk (zeroBlock c.exp0 flShort)
  if c.carry = 2 then (base.zip c.carryBlocks).map (fun p => addCarry c.exp0 p.1 p.2) else base

/-! ## The ring reduction (R326, R334) -/

/-- The value that a table of blocks gives for a key without an entry. -/
def noBlock : CBlock := { hdr := 0#64, m := [] }
/-- Key of a block before an axis step. -/
def stepKey (i b : Nat) : Nat := i * 2 ^ 25 + b

/-- What one change of a bucket sends (axis step, direction, block, value) and the owned blocks that it finishes. -/
structure Moved where
  c : CeBucket
  sends : List (Nat × Bool × Nat × CBlock) := []
  finals : List (Nat × CBlock) := []

/-- Counts a block that passes this device. -/
def CeBucket.pass (c : CeBucket) (i : Nat) : CeBucket := { c with passed := Tbl.modify 0 c.passed i (· + 1) }

/-- The local side's value of block `b` before axis step `i` is known: it starts on its way, meets the upstream block that waits, or waits for it. -/
def CeBucket.place (c : CeBucket) (g : Geo) (i b : Nat) (v : CBlock) : Nat → Moved
  | 0 => { c := c }
  | n + 1 =>
    if g.lens.length ≤ i then { c := c, finals := [(b, v)] }
    else if g.digit i g.rank = g.start i b then { c := c.pass i, sends := [(i, g.minus i b, b, v)] }
    else
      match Tbl.get none c.waits (stepKey i b) with
      | none => { c := { c with vals := Tbl.set noBlock c.vals (stepKey i b) v } }
      | some u =>
        let r := combine c.exp0 0 u v
        let c1 : CeBucket := ({ c with waits := Tbl.set none c.waits (stepKey i b) none } : CeBucket).pass i
        if g.digit i g.rank = g.digit i (g.owner b) then c1.place g (i + 1) b r n
        else { c := c1, sends := [(i, g.minus i b, b, r)] }

/-- An upstream block arrives: it meets the local side, or waits for it. -/
def CeBucket.arrive (c : CeBucket) (g : Geo) (i b : Nat) (u : CBlock) : Moved :=
  let v := Tbl.get noBlock c.vals (stepKey i b)
  let c1 : CeBucket := { c with waits := Tbl.set none c.waits (stepKey i b) (some u) }
  if v = noBlock then { c := c1 }
  else ({ c1 with vals := Tbl.set noBlock c1.vals (stepKey i b) noBlock } : CeBucket).place g i b v (g.lens.length + 1 - i)

/-- Two changes in succession. -/
def Moved.andThen (m : Moved) (f : CeBucket → Moved) : Moved :=
  let r := f m.c
  { c := r.c, sends := m.sends ++ r.sends, finals := m.finals ++ r.finals }

/-- The whole local contribution enters axis step 0. -/
def CeBucket.enterLocal (c : CeBucket) (g : Geo) : Moved :=
  (c.local.zipIdx).foldl (fun m e => m.andThen (fun c => c.place g 0 e.2 e.1 (g.lens.length + 1))) { c := c }

/-! ## Gathers (R325, R345) -/

/-- The packets that pass bytes of a rank on along the ring all-gather: on the axis they came by (`from_`), and on every axis before it. -/
def State.gatherSends (s : State) (c : CeBucket) (g : Geo) (rank from_ sub offset : Nat) (l : List Byte) : List CeSend :=
  let h : CollHdr := { c.collHdr rank with dstrank := rank, offset := offset }
  let hop (i : Nat) : List CeSend := [{ flow := s.axisFlow c.group (g.axes.getD i 0) false, sub := sub, hdr := h, bytes := l }]
  let on := if from_ < g.lens.length ∧ (g.digit from_ g.rank + 1) % g.lens.getD from_ 1 ≠ g.digit from_ rank then hop from_ else []
  on ++ (List.range from_).reverse.flatMap hop

/-- Cuts bytes into packets' loads of at most 4,080 bytes, with their offsets. -/
def loads (off : Nat) (l : List Byte) : List (Nat × List Byte) :=
  ((List.range (ceilDiv l.length 4080)).map (fun i => (off + 4080 * i, (l.drop (4080 * i)).take 4080)))

/-- Sends a segment's own bytes to every other member. -/
def State.gatherOwn (s : State) (c : CeBucket) (g : Geo) (off : Nat) (l : List Byte) : State :=
  s.cePush ((loads off l).flatMap (fun p => s.gatherSends c g g.rank g.lens.length 1 p.1 p.2))

/-! ## Putting a change into effect -/

/-- One owned block is converted, counted and written; under ALL_REDUCE its bytes are gathered (R337). -/
def State.ceConvert (s : State) (g : Geo) (c : CeBucket) (e : Nat × CBlock) : State × CeBucket :=
  let (b, v) := e
  let l := v.deliver c.dfmt (fld c.fmt 10 2) (bitAt c.ctrl 5)
  let c1 := { c with
    conv := c.conv + 1
    raised := satAdd (2 ^ 22 - 1) c.raised (if v.raises = 0 then 0 else 1)
    maxExp := max c.maxExp v.exp
    minCnt := some (match c.minCnt with | none => v.cnt | some m => min m v.cnt)
    empty := satAdd 1023 c.empty (if v.cnt = 0 then 1 else 0)
    nonfin := c.nonfin || decide (v.flags &&& flNonfin ≠ 0)
    ovfl := c.ovfl || decide (v.flags &&& flOvfl ≠ 0)
    rsat := c.rsat || decide (v.flags &&& flRsat ≠ 0) }
  let (t, c2) := s.ceDst c1 (c1.dst + BitVec.ofNat 72 (b * blockBytes c.dfmt)) l
  (if c.op = 3 then t.gatherOwn c2 g (b * blockBytes c.dfmt) l else t, c2)

/-- A bucket after a change: owned blocks are converted once its descriptor has begun, and packets go out. -/
def State.ceMoved (s : State) (g : Geo) (m : Moved) : State :=
  let sends := packBlocks (m.c.collHdr g.rank) (m.sends.map (fun e => (s.axisFlow m.c.group (g.axes.getD e.1 0) e.2.1, e.2.1, e.2.2.1, e.2.2.2)))
  if m.c.begun then
    let (t, c) := m.finals.foldl (fun (acc : State × CeBucket) e => acc.1.ceConvert g acc.2 e) (s, m.c)
    (t.cePut c).cePush sends
  else
    let n := g.lens.length
    let c := { m.c with vals := m.finals.foldl (fun t e => Tbl.set noBlock t (stepKey n e.1) e.2) m.c.vals }
    (s.cePut c).cePush sends

/-- The SHAKE256 digest of the local contribution. -/
def ceDigest (l : List CBlock) : List Word := digestWords (shake256 (l.flatMap CBlock.bytes) 32)

/-- The BUCKET entry of a bucket in the record that is replayed: its ring offset (R344, R391). -/
def State.ceEntry (s : State) (g b : Nat) : Nat → Nat → Option Nat
  | _, 0 => none
  | off, n + 1 =>
    match s.entryFind 0x05 0x09 off 0 ringFuel with
    | none => none
    | some o =>
      let w := s.entryWord o 0
      if fld w 0 6 = g ∧ fld w 6 12 = b then some o else s.ceEntry g b (s.entryNext o) n

/-- Outcome, CARRY_ADDED and order of parts of a BUCKET entry. -/
def State.ceRecorded (s : State) (o : Nat) : Nat × Bool × List Nat :=
  let w := s.entryWord o 1
  (fld w 0 3, bitAt w 3, (List.range (fld w 27 7)).map (fun i => fld (s.entryWord o (2 + i / 6)) (6 * (i % 6)) 6))

/-- The digest words of a BUCKET entry, when it has them. -/
def State.ceRecordedDigest (s : State) (o : Nat) : Option (List Word) :=
  let n := ceilDiv (fld (s.entryWord o 1) 27 7) 6
  if (s.entryAt o).2.1 = 2 + n + 8 then some ((List.range 8).map (fun i => s.entryWord o (2 + n + i))) else none

/-- Under replay the contribution's digest is compared with the recorded one (R393). -/
def State.ceCompare (s : State) (c : CeBucket) : State :=
  if c.order ≠ 2 then s
  else
    match s.ceEntry c.group c.bucket s.eph.start 4096 with
    | none => s
    | some o =>
      match s.ceRecordedDigest o with
      | none => s
      | some d => if d = ceDigest c.local then s else s.ephEvent 16

/-- The contribution stands: its blocks enter the ring, and waiting backup requests are answered; a detached replay ends here. -/
def State.ceStand (s : State) (c : CeBucket) (how : Contrib) : State :=
  if c.over then s else
  let g := s.geo c.group c.segs
  let c := { c with contrib := how }
  let s := (s.cePut c).ceCompare c
  if c.detached then s.cePut { c with status := some 0 } else s.ceMoved g (c.enterLocal g)

/-- The carry that a bucket awaits, when it is complete. -/
def State.ceCarryOf (s : State) (c : CeBucket) : Option CeCarry :=
  s.ce.carries.find? (fun k => k.group == c.group && k.bucket == c.bucket)

/-- Takes a complete carry into a bucket that awaits it. -/
def State.ceTakeCarry (s : State) (c : CeBucket) : State × CeBucket :=
  match s.ceCarryOf c with
  | none => (s, c)
  | some k =>
    if c.carry = 1 ∧ k.complete = true then
      match s.ceRead k.buf (104 * k.nblk) with
      | .error _ => (s, c)
      | .ok l =>
        let bs := (chunks 104 k.nblk l).map blockOfBytes
        (s.modCe (fun x => { x with carries := x.carries.erase k }), { c with carry := 2, carryBlocks := bs })
    else (s, c)

/-- Drops the carry that a bucket awaits (R340). -/
def State.ceDropCarry (s : State) (c : CeBucket) : State × CeBucket :=
  ((s.modCe (fun x => { x with carries := x.carries.filter (fun k => !(k.group == c.group && k.bucket == c.bucket)) })).ceEvent 3, { c with carry := 3 })

/-- POLICY of a group. -/
def State.cgPolicy (s : State) (g : Nat) : Nat := s.ctlFld (cgOff g 0) 6 2

/-- A contribution that is late under ALLORNONE: an earlier one of the group and STEP was (R340, R427). -/
def State.ceLateStep (s : State) (c : CeBucket) : Bool :=
  s.ctlFld (cgOff c.group 0) 10 1 == 1 && s.cgPolicy c.group != 0 && (s.ceGroup c.group).lateStep == some c.step

/-- The contribution missed its deadline tick, or a part of it could not be read, or its member's earlier one was late; under WAIT none is (R340, R346, R427). -/
def State.ceMissed (s : State) (c : CeBucket) : Bool := s.cgPolicy c.group != 0 && ((c.past && !c.inTime) || c.partFault || s.ceLateStep c)

/-- Whether and how a pending contribution that is complete stands now. -/
def State.ceTry (s : State) (c : CeBucket) : State :=
  let (s, c) := if c.past && s.cgPolicy c.group != 0 then (s, c) else s.ceTakeCarry c
  let s := s.cePut c
  if c.over = true ∨ c.contrib ≠ .pending ∨ c.carry = 1 ∨ c.own.isNone then s
  else
    match c.rep with
    | some (o, _, _) => if o = 1 then s.ceStand { c with late := true } .late else s.ceStand c .onTime
    | none => if s.ceMissed c then s else s.ceStand c .onTime

/-- The carry of a bucket's contribution, with the parts taken so far. -/
def CeBucket.newCarry (c : CeBucket) : CeCarry :=
  { group := c.group, bucket := c.bucket, step := c.step, buf := c.carryBuf, nblk := c.nblk, exp0 := c.exp0, sfmt := c.sfmt
    arg := c.arg, parts := c.parts, taken := c.taken, sem := c.sem, seen := c.seen, start := c.start }

/-- A contribution that is late takes no part: DROP, or ADD_LATER with a new carry. -/
def State.ceLate (s : State) (c : CeBucket) (later : Bool) : State :=
  let c := { c with late := true }
  if later then (s.modCe (fun x => { x with carries := x.carries ++ [c.newCarry] })).ceStand c .addLater
  else s.ceStand c .dropped

/-- Asks the backup device for a copy (R342). -/
def State.ceAsk (s : State) (c : CeBucket) : State :=
  let c := { c with contrib := .backupWait, late := true, askTick := s.now }
  (s.cePut c).cePush [{ flow := s.ctlFld (cgOff c.group 0x10) 14 14, sub := 4, hdr := c.collHdr (s.geo c.group []).rank }]

/-- BACKUP_DATA packets with the blocks of an own contribution. -/
def backupSends (flow : Nat) (h : CollHdr) (l : List CBlock) : List CeSend :=
  (List.range (ceilDiv l.length 39)).map (fun i =>
    { flow := flow, sub := 5, hdr := { h with offset := 39 * i }, blocks := ((l.drop (39 * i)).take 39).map (fun b => b.mark flBackup) })

/-- Answers the backup requests that a bucket's own contribution now meets. -/
def State.ceAnswer (s : State) (c : CeBucket) : State :=
  match c.own with
  | none => s
  | some l =>
    let mine := s.ce.asks.filter (fun a => a.2.1 == c.group && a.2.2.1 == c.bucket && a.2.2.2 == c.step)
    (s.modCe (fun x => { x with asks := x.asks.filter (fun a => !mine.contains a) })).cePush
      (mine.flatMap (fun a => backupSends a.1 (c.collHdr (s.geo c.group []).rank) l))

/-- Takes ready parts of a bucket in progress (R329, R344). -/
def State.ceTake (s : State) (b : CeBucket) : State :=
  let c := { b with seen := some (Tbl.get 0 s.semUps b.sem) }
  if c.begun = false ∨ c.contrib = .absent ∨ c.over = true ∨ bitAt c.hdr 17 = true ∨ s.ceNews b.sem b.seen = false then s
  else
    let ready := s.ceReady c.arg c.parts c.step c.taken
    let order := match c.rep with
      | some (_, _, l) => (l.drop c.taken.length).takeWhile (fun i => ready.contains i)
      | none => ready
    let c1 := { c with taken := c.taken ++ order }
    if c1.reduces && c1.own.isNone && decide (c1.parts ≤ c1.taken.length) then
      match s.ceForm c1.arg c1.taken c1.nblk c1.exp0 c1.sfmt with
      | .error e => (s.noteErr e).cePut { c1 with partFault := true, late := true }
      | .ok l =>
        let c2 := { c1 with own := some l, doneTick := c1.doneTick.or (some s.now) }
        let s1 := (s.cePut c2).ceAnswer c2
        s1.ceTry c2
    else s.cePut c1

/-- Parts taken for a carry. -/
def State.ceTakeLater (s : State) (g b st : Nat) : State :=
  s.modCe (fun x => { x with carries := x.carries.map (fun k =>
    if k.group = g ∧ k.bucket = b ∧ k.step = st ∧ k.complete = false ∧ s.ceNews k.sem k.seen = true then
      { k with taken := k.taken ++ s.ceReady k.arg k.parts k.step k.taken, seen := some (Tbl.get 0 s.semUps k.sem) }
    else k) })

/-- The engine samples a tick: it takes what became ready before it, and every bucket whose deadline it is has its contribution in time, or not (R340). -/
def State.ceSample (s : State) : State :=
  (s.ce.buckets.map CeBucket.id).foldl (fun t i =>
    match t.ce.buckets.find? (fun c => c.id == i) with
    | none => t
    | some c =>
      if c.begun = false ∨ c.reduces = false ∨ c.past = true ∨ t.now < c.deadline then t
      else
        let u := t.ceTake c
        match u.ce.buckets.find? (fun d => d.id == i) with
        | none => u
        | some d => u.cePut { d with past := true, inTime := d.own.isSome }) s

/-! ## Exchanges of bytes (R345, R347, R348) -/

/-- Address of the receive vector. -/
def CeBucket.recvVec (c : CeBucket) (size : Nat) : Pair :=
  c.arg + BitVec.ofNat 72 (0x40 + 32 * c.parts + (if bitAt c.hdr 6 || c.op == 4 then 8 * size else 0))

/-- The next hop of an exchange towards a rank: the first axis on which it differs, the shorter way round, + on a tie (DEDUCED, log 35). -/
def Geo.toward (g : Geo) (r : Nat) : Option (Nat × Bool) :=
  ((List.range g.lens.length).find? (fun i => g.digit i r != g.digit i g.rank)).map (fun i =>
    let l := g.lens.getD i 1
    let up := (g.digit i r + l - g.digit i g.rank) % l
    (g.axes.getD i 0, decide (l - up < up)))

/-- Packets of a piece on its way to a rank. -/
def State.exchangeSends (s : State) (g : Geo) (h : CollHdr) (l : List (Nat × List Byte)) : List CeSend :=
  match g.toward h.dstrank with
  | none => []
  | some (a, minus) => l.map (fun p => { flow := s.axisFlow h.group a minus, sub := 1, hdr := { h with offset := p.1, minus := minus }, bytes := p.2 })

/-- Bytes of a piece from a rank arrive: those below RECV_CAP are written, and the length once all are here. -/
def State.ceReceive (s : State) (c : CeBucket) (g : Geo) (src off total : Nat) (l : List Byte) : State × CeBucket :=
  let slot := if c.op = 4 then src else 0
  let (s1, c1) := s.ceDst c (c.dst + BitVec.ofNat 72 (slot * (if c.op = 4 then c.recvCap else 0) + off)) (l.take (c.recvCap - off))
  let n := Tbl.get 0 c1.got src + l.length
  let c2 := { c1 with got := Tbl.set 0 c1.got src n, total := Tbl.set 0 c1.total src (total + 1) }
  if total ≤ n then
    s1.ceDst c2 (c2.recvVec g.size + BitVec.ofNat 72 (8 * slot)) (wordBytes (word (if c.recvCap < total then c.recvCap + 8 else total)))
  else (s1, c2)

/-- The address from which a bucket's own bytes are read. -/
def State.ceSource (s : State) (c : CeBucket) : Except XErr Pair := (s.cePart c.arg 0).map Prod.fst

/-- Starts an epoched ALL_GATHER: the shard's current or previous buffer, or EPOCH_MISMATCH (R345). -/
def State.ceEpoch (s : State) (c : CeBucket) (g : Geo) : State :=
  let n := fld c.hdr 8 9
  let sh := s.ctlGet (shOff n 0)
  let e := s.ctlGet (shOff n 8)
  let lo := g.segLo g.rank
  let len := c.segs.getD g.rank 0
  let send (r : Nat) (prev : Bool) : State :=
    let pa := s.ctlFld (shOff n r) 0 28 * 2 ^ 16
    match s.readAt 0 (selfPair pa) len with
    | .error e => (s.noteErr e).cePut { c with sent := true, status := some (ceStatus e) }
    | .ok l =>
      let (t, c1) := s.ceDst c (c.dst + BitVec.ofNat 72 lo) l
      let c2 := { c1 with sent := true, readsPrev := prev, got := Tbl.set 0 c1.got g.rank len }
      let t1 := (t.cePut c2).gatherOwn c2 g lo l
      if prev then t1.ctlPut (shOff n 0) 2 12 (t1.ctlFld (shOff n 0) 2 12 + 1) else t1
  if bitAt sh 0 && e == c.fmt then send 0x10 false
  else if bitAt sh 0 && bitAt sh 1 && e - 1#36 == c.fmt then send 0x18 true
  else
    let c1 := { c with sent := true, misrank := some g.rank }
    (s.cePut c1).cePush (s.gatherSends c1 g g.rank g.lens.length 6 lo [])

/-- Starts the movement of a bucket's own bytes, once its flows are OPEN and part 0 is ready. -/
def State.ceKick (s : State) (c : CeBucket) : State :=
  let g := s.geo c.group c.segs
  if c.begun = false ∨ c.sent = true ∨ c.status.isSome = true ∨ c.detached = true ∨ s.cgOpen c.group = false then s
  else if c.op = 2 ∧ c.epoched = true then s.ceEpoch c g
  else if (c.op = 2 ∨ c.op = 4 ∨ c.op = 5) ∧ c.taken.contains 0 = true then
    match s.ceSource c with
    | .error e => (s.noteErr e).cePut { c with sent := true, partFault := true, status := some (ceStatus e) }
    | .ok a =>
      if c.op = 2 then
        let n := c.segs.getD g.rank 0 * c.unit
        match s.ceRead a n with
        | .error e => (s.noteErr e).cePut { c with sent := true, partFault := true, status := some (ceStatus e) }
        | .ok l =>
          let lo := g.segLo g.rank * c.unit
          let (t, c1) := s.ceDst c (c.dst + BitVec.ofNat 72 lo) l
          let c2 := { c1 with sent := true, got := Tbl.set 0 c1.got g.rank n }
          (t.cePut c2).gatherOwn c2 g lo l
      else
        match s.ceRead a c.len with
        | .error e => (s.noteErr e).cePut { c with sent := true, partFault := true, status := some (ceStatus e) }
        | .ok l =>
          let jobs : List (Nat × List Byte) :=
            if c.op = 5 then [(fld c.fmt 0 12, l)]
            else (List.range g.size).map (fun j => (j, (l.drop (g.segLo j)).take (c.segs.getD j 0)))
          let c0 := { c with sent := true }
          jobs.foldl (fun t j =>
            let c := (t.ce.buckets.find? (fun d => d.id == c0.id)).getD c0
            if j.1 = g.rank then
              let (t1, c1) := t.ceReceive c g g.rank 0 j.2.length j.2
              t1.cePut c1
            else
              t.cePush (t.exchangeSends g { c.collHdr g.rank with dstrank := j.1 } (if j.2.isEmpty then [(0, [])] else loads 0 j.2))) (s.cePut c0)
  else s

/-- Starts what waits for flows or parts, oldest bucket first, and sends what can go. -/
def State.ceKickAll (s : State) : State :=
  (s.ce.buckets.foldl (fun t c => match t.ce.buckets.find? (fun d => d.id == c.id) with | some d => t.ceKick d | none => t) s).cePump

end Sys2Proof.Machine
end

