-- ==== Sys2Proof/Machine/CollRun.lean ====
section
/-!
DEFINITION. The commands of the collective engine: beginning a descriptor, packets, deadlines, completion, and register writes (R325–R351).
-/
namespace Sys2Proof.Machine

/-! ## Received packets -/

/-- The axis step and direction of travel of a packet that arrives on a flow of a group: from the + neighbour it travels −. -/
def State.ceInput (s : State) (g : Geo) (group flow : Nat) : Option (Nat × Bool) :=
  (List.range g.axes.length).findSome? (fun i =>
    let a := g.axes.getD i 0
    if flow = s.axisFlow group a false then some (i, true) else if flow = s.axisFlow group a true then some (i, false) else none)

/-- The bucket ends with a status. -/
def State.ceEnd (s : State) (c : CeBucket) (status : Nat) : State :=
  (s.cePut { c with status := some status }).ceDrop c.group c.bucket c.step

/-- VERNIER_FAIL (R336). -/
def State.ceVernier (s : State) (c : CeBucket) : State := (s.ceEnd c 3).ceEvent 0

/-- Keeps a packet for a bucket that has not begun. -/
def State.ceEarly (s : State) (e : CeEarly) : State := s.modCe (fun x => { x with early := x.early ++ [e] })

/-- Block `j` of the packet is added again (case 2). -/
def readdsBlock (v : VCheck) (j : Nat) : Bool :=
  match v with
  | .readd l => l.contains j
  | _ => false

/-- A BLOCKS packet for a bucket: the checks of R336, the ACK, and each block's hop (R334). -/
def State.ceBlocks (s : State) (flow : Nat) (h : CollHdr) (bs : List CBlock) (fail : VCheck) : State :=
  match s.ceFind h.group h.bucket h.step with
  | none => s.ceEarly { flow := flow, sub := 0, hdr := h, blocks := bs, fail := fail }
  | some c =>
    let g := s.geo c.group c.segs
    match s.ceInput g h.group flow with
    | none => s
    | some (i, minus) =>
      let key := stepKey i h.offset
      if c.over then s
      else if fail = .owner ∨ bs.any (fun b => residueOf b.ms != b.vernier) = true then
        if 3 ≤ Tbl.get 0 c.fails key then s.ceVernier c
        else (s.cePut { c with fails := Tbl.modify 0 c.fails key (· + 1) }).ceEmit { flow := flow, sub := 3, hdr := h }
      else if fail = .twice then s.ceVernier c
      else
        let s1 := s.ceEmit { flow := flow, sub := 2, hdr := h }
        let m := bs.zipIdx.foldl (fun (m : Moved) e =>
          let b := h.offset + e.2
          if b < c.nblk ∧ g.held i b = true ∧ g.minus i b = minus ∧ g.digit i g.rank ≠ g.start i b then
            m.andThen (fun c => c.arrive g i b (if readdsBlock fail e.2 then e.1.mark flRetry else e.1))
          else m) ({ c := c } : Moved)
        s1.ceMoved g m

/-- A DATA packet (R345, R348): forwarded towards its rank, or written at its offset; `total` is the length of the piece (DEDUCED, log 36). -/
def State.ceData (s : State) (flow : Nat) (h : CollHdr) (total : Nat) (l : List Byte) : State :=
  let g0 := s.geo h.group []
  if h.dstrank ≠ h.srcrank ∧ h.dstrank ≠ g0.rank then s.cePush (s.exchangeSends g0 h [(h.offset, l)])
  else
    match s.ceFind h.group h.bucket h.step with
    | none => s.ceEarly { flow := flow, sub := 1, hdr := h, bytes := l, total := total }
    | some c =>
      let g := s.geo c.group c.segs
      if c.begun = false then s.ceEarly { flow := flow, sub := 1, hdr := h, bytes := l, total := total }
      else if c.over then s
      else if c.op = 4 ∨ c.op = 5 then
        if c.op = 4 ∨ h.srcrank = fld c.fmt 12 12 then
          let (t, c1) := s.ceReceive c g h.srcrank h.offset total l
          t.cePut c1
        else s
      else
        match s.ceInput g h.group flow with
        | none => s
        | some (i, _) =>
          let (t, c1) := s.ceDst c (c.dst + BitVec.ofNat 72 h.offset) l
          let c2 := { c1 with got := Tbl.modify 0 c1.got h.srcrank (· + l.length) }
          (t.cePut c2).cePush (s.gatherSends c g h.srcrank i 1 h.offset l)

/-- EPOCH_MISMATCH in place of a rank's segment (R345). -/
def State.ceMismatch (s : State) (flow : Nat) (h : CollHdr) : State :=
  match s.ceFind h.group h.bucket h.step with
  | none => s.ceEarly { flow := flow, sub := 6, hdr := h }
  | some c =>
    let g := s.geo c.group c.segs
    if c.over = true ∨ c.op ≠ 2 then s
    else
      match s.ceInput g h.group flow with
      | none => s
      | some (i, _) =>
        (s.cePut { c with misrank := c.misrank.or (some h.srcrank), got := Tbl.set 0 c.got h.srcrank (c.segs.getD h.srcrank 0) }).cePush
          (s.gatherSends c g h.srcrank i 6 h.offset [])

/-- The packets that waited for a bucket go ahead. -/
def State.ceLateArrivals (s : State) (g b st : Nat) : State :=
  let mine := s.ce.early.filter (fun e => e.hdr.group == g && e.hdr.bucket == b && e.hdr.step == st)
  let s1 := s.modCe (fun x => { x with early := x.early.filter (fun e => !mine.contains e) })
  mine.foldl (fun t e =>
    if e.sub = 0 then t.ceBlocks e.flow e.hdr e.blocks e.fail
    else if e.sub = 1 then t.ceData e.flow e.hdr e.total e.bytes
    else t.ceMismatch e.flow e.hdr) s1

/-- A retained packet is the one that a header names. -/
def CeSend.answers (p : CeSend) (flow : Nat) (h : CollHdr) : Bool :=
  p.flow == flow && p.isOf h.group h.bucket h.step && p.hdr.offset == h.offset && p.hdr.minus == h.minus

/-- ACK: the packet leaves the retention buffer (R336). -/
def State.ceAck (s : State) (flow : Nat) (h : CollHdr) : State :=
  (s.modCe (fun x => { x with retain := x.retain.filter (fun p => !p.answers flow h) })).ceRoom

/-- RESEND: the retained packet goes again with RETRY set, at most 3 times (R336). -/
def State.ceResend (s : State) (flow : Nat) (h : CollHdr) : State :=
  match s.ce.retain.find? (fun p => p.answers flow h) with
  | none => s
  | some p =>
    if 3 ≤ p.resent then
      match s.ceFind h.group h.bucket h.step with
      | some c => s.ceVernier c
      | none => (s.ceDrop h.group h.bucket h.step).ceEvent 0
    else
      let q := { p with resent := p.resent + 1, blocks := p.blocks.map (fun b => b.mark flRetry) }
      (s.modCe (fun x => { x with retain := x.retain.map (fun r => if r = p then q else r) })).ceEmit q

/-- BACKUP_REQ: answered at once, or when the own contribution to the bucket is complete (R342). -/
def State.ceAsked (s : State) (flow : Nat) (h : CollHdr) : State :=
  let own := ((s.ceFind h.group h.bucket h.step).bind CeBucket.own).or
    ((s.ce.kept.find? (fun k => k.1 == h.group && k.2.1 == h.bucket && k.2.2.1 == h.step)).map (fun k => k.2.2.2))
  match own with
  | some l => s.cePush (backupSends flow { h with srcrank := (s.geo h.group []).rank } l)
  | none => s.modCe (fun x => { x with asks := x.asks ++ [(flow, h.group, h.bucket, h.step)] })

/-- BACKUP_DATA: once every block is here, the copy is the contribution (R342). -/
def State.ceCopy (s : State) (h : CollHdr) (bs : List CBlock) : State :=
  match s.ceFind h.group h.bucket h.step with
  | none => s
  | some c =>
    if c.over = true ∨ c.contrib ≠ .backupWait then s
    else
      let c1 := { c with copy := bs.zipIdx.foldl (fun t e => Tbl.set noBlock t (h.offset + e.2) e.1) c.copy }
      if (List.range c.nblk).all (fun b => Tbl.get noBlock c1.copy b != noBlock) then
        let (s1, c2) := s.ceTakeCarry c1
        s1.ceStand c2 .backup
      else s.cePut c1

/-- A COLL packet of a flow, in PSEQ order (R318, R332). -/
def State.ceRx (s : State) (flow : Nat) : CollRx → State
  | .blocks h bs fail => s.ceBlocks flow h bs fail
  | .data h total l => s.ceData flow h total l
  | .ack h => s.ceAck flow h
  | .resend h => s.ceResend flow h
  | .backupReq h => s.ceAsked flow h
  | .backupData h bs => s.ceCopy h bs
  | .epochMismatch h => s.ceMismatch flow h

/-! ## Beginning a descriptor (R327–R330) -/

/-- The segments of a descriptor; none where a vector cannot be read. -/
def State.ceSegs (s : State) (c : CeBucket) (size : Nat) : Except XErr (List Nat) :=
  if bitAt c.hdr 6 ∨ c.op = 4 then
    match s.ceWords (c.arg + BitVec.ofNat 72 (0x40 + 32 * c.parts)) size with
    | .error e => .error e
    | .ok l => .ok (l.map BitVec.toNat)
  else if c.op = 2 ∧ c.epoched = true then .ok ((evenSegs (c.len / 8) size).map (· * 8))
  else if c.op = 5 then .ok []
  else .ok (evenSegs (c.len / 32) size)

/-- A format code of reductions. -/
def ceFmtOk (code : Nat) : Bool := code == 0 || code == 3 || code == 10 || code == 14

/-- The words of a descriptor of elements that R330 rejects. -/
def CeBucket.badElems (c : CeBucket) : Bool :=
  !ceFmtOk c.dfmt || fld c.fmt 20 16 != 0 || c.len % 32 != 0 || decide (2 ^ 29 < c.len)

/-- A descriptor that R330 rejects by its own eight words. -/
def State.ceBadDesc (s : State) (c : CeBucket) (aux : Word) : Bool :=
  let op := c.op
  let size := (s.geo c.group []).size
  decide (5 < op) || bitAt c.ctrl 6 || fld c.ctrl 30 6 != 0 || fld aux 28 8 != 0 || fld c.arg 0 6 != 0 ||
  s.ctlFld (cgOff c.group 0) 5 1 == 0 || (c.reduces && (!ceFmtOk c.sfmt || c.badElems)) || ((op == 4 || op == 5) && c.len % 8 != 0) ||
  (op == 5 && (decide (size ≤ fld c.fmt 0 12) || decide (size ≤ fld c.fmt 12 12)))

/-- A reserved word of a part table entry is not zero; one that cannot be read rejects nothing, and an absent member's parts are not read (DESIGN CHOICE, log 35). -/
def State.ceBadParts (s : State) (c : CeBucket) : Bool :=
  !bitAt c.hdr 17 && (List.range c.parts).any (fun i =>
    match s.ceWords (c.arg + BitVec.ofNat 72 (0x58 + 32 * i)) 1 with
    | .ok l => l.getD 0 0#36 != 0#36
    | .error _ => false)

/-- A descriptor that R330 rejects by its argument block: header, the words at 0x28–0x3F, segments, part table. -/
def State.ceBad (s : State) (c : CeBucket) (rest : List Word) (segs : List Nat) : Bool :=
  let op := c.op
  fld c.hdr 18 18 != 0 || rest.any (fun w => w != 0#36) || (c.epoched && op != 2) ||
  (op == 2 && (if c.epoched then c.len % 8 != 0 else c.badElems)) ||
  ((c.reduces || (op == 2 && !c.epoched)) && segs.sum != c.len / 32) ||
  ((op == 4 || (op == 2 && c.epoched)) && segs.sum != c.len) || (op == 4 && segs.any (fun n => n % 8 != 0)) || s.ceBadParts c

/-- START as a tick (R329): 0 is the tick that opened the current frame. -/
def State.ceStart (s : State) (w : Word) : Nat :=
  if w = 0#36 then s.now
  else match s.tickAhead w with
    | some d => s.now + d
    | none => s.now - (word s.now - w).toNat

/-- A group begins a descriptor of a STEP: an earlier STEP is complete and enters the history (R341). -/
def State.ceRoll (s : State) (g step : Nat) : State :=
  match (s.ceGroup g).cur with
  | some (st, late, _) =>
    if st = step then s
    else if s.ctlFld 0x70008 7 2 = 2 then s.modGroup g (fun x => { x with cur := none })
    else s.modGroup g (fun x => { x with cur := none, hist := (late :: x.hist).take 16 })
  | none => s

/-- The queue's and the engine's count of descriptors in progress, and the queue's STATE. -/
def State.ceCounts (s : State) (q : Nat) : State :=
  let n := (s.ce.buckets.filter (fun c => c.begun && c.queue == q)).length
  let s1 := (s.ctlPut (ceOff q 0x18) 4 7 n).ctlPut 0x70008 0 7 (s.ce.buckets.filter (fun c => c.begun)).length
  if s1.ctlFld (ceOff q 0x18) 0 2 = 0 then s1 else s1.ctlPut (ceOff q 0x18) 0 2 (if n = 0 then 1 else 2)

/-- Descriptors in the ring of a queue. -/
def State.ceRing (s : State) (q : Nat) : Nat := 2 ^ s.ctlFld (ceOff q 0) 0 4
/-- A pair of a queue's registers. -/
def State.cePair (s : State) (q r : Nat) : Pair := mkPair (s.ctlGet (ceOff q (r + 8))) (s.ctlGet (ceOff q r))

/-- What a bucket does as it begins, beyond being listed. -/
def State.ceOpen (s : State) (c : CeBucket) : State :=
  if c.status.isSome then s
  else if c.reduces = false then (if c.op = 0 ∨ c.detached = true then s.cePut { c with status := some 0 } else s.ceKick c)
  else
    -- a carry held for the bucket (R340)
    let (s, c) := match s.ceCarryOf c with
      | none => (s, c)
      | some k =>
        let wanted := (k.step + 1) % 65536 = c.step ∧ bitAt c.hdr 17 = false ∧ (match c.rep with | some (_, a, _) => a | none => true) = true
        if wanted then s.ceTakeCarry { c with carry := 1 } else s.ceDropCarry c
    let s := s.cePut c
    if bitAt c.hdr 17 then s.ceStand c .absent
    else
      match c.rep with
      | some (2, _, _) => s.ceLate c false
      | some (3, _, _) => s.ceLate c true
      | some (4, _, _) => s.ceAsk c
      | _ => s

/-- A bucket whose deadline passed before its descriptor began takes the descriptor; a carry that is held for the bucket comes too late for it (R340, R342). -/
def State.ceAdopt (s : State) (p c : CeBucket) : State :=
  let absent := bitAt c.hdr 17
  let later := s.cgPolicy c.group = 2 ∧ absent = false
  let c := { c with id := p.id, exp0 := p.exp0, segs := p.segs, passed := p.passed, waits := p.waits, fails := p.fails, late := !absent
                    contrib := if absent then .absent else if later then .addLater else .dropped }
  let (s, c) := if (s.ceCarryOf c).isSome then s.ceDropCarry c else (s, c)
  let g := s.geo c.group c.segs
  let n := g.lens.length
  let mine := p.vals.filter (fun (e : Nat × CBlock) => e.1 / 2 ^ 25 == n)
  let c := { c with vals := p.vals.filter (fun (e : Nat × CBlock) => e.1 / 2 ^ 25 != n) }
  let s1 := (s.cePut c).modCe (fun x => { x with carries := if later then x.carries ++ [c.newCarry] else x.carries })
  s1.ceMoved g { c := c, finals := mine.map (fun e => (e.1 % 2 ^ 25, e.2)) }

/-- Queue `q` begins the descriptor at HEAD, if its OP is one of `ops` and OWN is 1. -/
def State.ceBegin (s : State) (q : Nat) (ops : Nat → Bool) : State :=
  let head := s.ctlFld (ceOff q 0x30) 0 16 % s.ceRing q
  let look := Tbl.get false s.ce.look q
  let db := s.ctlFld (ceOff q 0x18) 3 1 = 1
  if 8 ≤ q ∨ s.ctlFld 0x70000 0 1 = 0 ∨ s.ctlFld (ceOff q 0x18) 0 2 = 0 ∨ (look = false ∧ ¬ db) ∨
      64 ≤ (s.ce.buckets.filter (fun c => c.begun)).length ∨
      s.ce.buckets.any (fun c => c.begun && c.queue == q && c.index == head) = true then s
  else
    let s0 := if look then s else s.ctlPut (ceOff q 0x18) 3 1 0
    let setLook (t : State) (b : Bool) : State := t.modCe (fun x => { x with look := Tbl.set false x.look q b })
    let list (t : State) (c : CeBucket) : State :=
      ((setLook (t.modCe (fun x => { x with buckets := x.buckets ++ [c], next := x.next + 1 })) true).ctlPut (ceOff q 0x30) 0 16
        ((head + 1) % t.ceRing q)).ceCounts q
    match s.ceWords (s.cePair q 0x20 + BitVec.ofNat 72 (64 * head)) 8 with
    | .error e =>
      if ops 0 then list (s0.noteErr e) { id := s.ce.next, queue := q, index := head, group := 0, bucket := 0, step := 0, status := some (ceStatus e) } else s
    | .ok l =>
      let ctrl := l.getD 0 0#36
      if bitAt ctrl 7 = false then setLook s0 false
      else if ops (fld ctrl 0 4) = false then s
      else
        let aux := l.getD 7 0#36
        let arg := mkPair (l.getD 2 0#36) (l.getD 1 0#36)
        let c : CeBucket :=
          { id := s.ce.next, queue := q, index := head, ctrl := ctrl, dst := mkPair (l.getD 4 0#36) (l.getD 3 0#36)
            len := (l.getD 5 0#36).toNat, fmt := l.getD 6 0#36, arg := arg, group := fld ctrl 8 6, bucket := fld ctrl 14 12
            step := fld aux 12 16, sem := fld aux 0 12, exp0 := fld (l.getD 6 0#36) 12 8 }
        if s0.ceBadDesc c aux then list s0 { c with status := some 1 }
        else if c.op = 0 then list s0 { c with status := some 0 }
        else
          match s0.ceWords arg 8 with
          | .error e => list (s0.noteErr e) { c with status := some (ceStatus e) }
          | .ok a =>
            let c := { c with
              hdr := a.getD 0 0#36, carryBuf := mkPair (a.getD 3 0#36) (a.getD 2 0#36), recvCap := (a.getD 4 0#36).toNat
              start := s0.ceStart (a.getD 1 0#36) }
            match s0.ceSegs c (s0.geo c.group []).size with
            | .error e => list (s0.noteErr e) { c with status := some (ceStatus e) }
            | .ok segs =>
              if s0.ceBad c (a.drop 5) segs then list s0 { c with status := some 1 }
              else
                let order := s0.ctlFld 0x70008 7 2
                let s1 := s0.ceRoll c.group c.step
                let due := c.start + s1.cgDeadline c.group
                let c := { c with
                  past := decide (due ≤ s1.now), segs := segs, order := order, detached := order == 2 && s1.eph.detached
                  deadline := due
                  rep := if order = 2 then (s1.ceEntry c.group c.bucket s1.eph.start 4096).map s1.ceRecorded else none }
                match s1.ce.buckets.find? (fun p => !p.begun && p.isFor c.group c.bucket c.step) with
                | some p =>
                  let s2 := s1.ceAdopt p c
                  (((setLook s2 true).ctlPut (ceOff q 0x30) 0 16 ((head + 1) % s2.ceRing q)).ceCounts q).ceLateArrivals c.group c.bucket c.step
                | none => ((list s1 c).ceOpen c).ceLateArrivals c.group c.bucket c.step

/-- CE_NOP: a record only; a reserved OP is a DESC_ERROR. -/
def execCeNop (q : Nat) (s : State) : Out := .next (s.ceBegin q (fun op => op == 0 || decide (5 < op)))
/-- REDUCE_SCATTER. -/
def execReduceScatter (q : Nat) (s : State) : Out := .next (s.ceBegin q (· == 1))
/-- ALL_GATHER. -/
def execAllGather (q : Nat) (s : State) : Out := .next (s.ceBegin q (· == 2))
/-- ALL_REDUCE. -/
def execAllReduce (q : Nat) (s : State) : Out := .next (s.ceBegin q (· == 3))
/-- ALL_TO_ALL. -/
def execAllToAll (q : Nat) (s : State) : Out := .next (s.ceBegin q (· == 4))
/-- PERMUTE. -/
def execPermute (q : Nat) (s : State) : Out := .next (s.ceBegin q (· == 5))

/-! ## Parts, deadlines, carries (R329, R340–R342) -/

/-- PART_TAKE: the part tables of a bucket in progress and of its carry are read. -/
def execPartTake (g b st : Nat) (s : State) : Out :=
  let s1 := match s.ceFind g b st with
    | some c => s.ceTake c
    | none => s
  .next ((s1.ceTakeLater g b st).ceKickAll)

/-- BUCKET_DEADLINE: for a bucket that has not begun, the command carries the segments and EXP0 of the group's bucket. -/
def execBucketDeadline (g b st : Nat) (segs : List Nat) (exp0 : Nat) (s : State) : Out :=
  match s.ceFind g b st with
  | none =>
    if s.ctlFld (cgOff g 0) 5 1 = 0 ∨ s.cgPolicy g = 0 ∨ s.ctlFld 0x70008 7 2 = 2 ∨ segs.length ≠ (s.geo g []).size then .next s
    else
      let c : CeBucket := { id := s.ce.next, begun := false, group := g, bucket := b, step := st, exp0 := exp0 % 256, segs := segs }
      let s1 := s.modCe (fun x => { x with buckets := x.buckets ++ [c], next := x.next + 1 })
      .next ((s1.ceStand c .dropped).ceLateArrivals g b st)
  | some c =>
    if c.begun = false ∨ c.reduces = false ∨ c.contrib ≠ .pending ∨ c.rep.isSome = true ∨ c.over = true ∨ c.past = false ∨ s.cgPolicy g = 0 then .next s
    else
      let (s1, c1) := if c.carry = 1 then s.ceDropCarry c else (s, c)
      if s1.ceMissed c1 = false then .next (s1.ceStand c1 .onTime)
      else
        let s2 := s1.modGroup g (fun x => { x with lateStep := some st })
        match s1.cgPolicy g with
        | 1 => .next (s2.ceLate c1 false)
        | 2 => .next (s2.ceLate c1 true)
        | _ => .next (s2.ceAsk c1)

/-- BACKUP_GRACE_EXPIRY: FALLBACK applies. -/
def execBackupGraceExpiry (g b st : Nat) (s : State) : Out :=
  match s.ceFind g b st with
  | none => .next s
  | some c =>
    if c.over = false ∧ c.contrib = .backupWait ∧ c.askTick + s.ctlFld (cgOff g 0x10) 28 8 ≤ s.now then
      .next ((s.ceEvent 4).ceLate c (s.ctlFld (cgOff g 0) 8 1 == 1))
    else .next s

/-- CARRY_COMPLETE: every part has been taken and is summed into the carry buffer; a bucket that awaits the carry goes on. -/
def execCarryComplete (g b st : Nat) (s : State) : Out :=
  match s.ce.carries.find? (fun k => k.group == g && k.bucket == b && k.step == st && !k.complete) with
  | none => .next s
  | some k =>
    if k.taken.length < k.parts then .next s
    else
      match s.ceForm k.arg k.taken k.nblk k.exp0 k.sfmt with
      | .error e => .next (s.noteErr e)
      | .ok l =>
        match s.ceStore k.buf (l.flatMap CBlock.bytes) with
        | (t, some e) => .next (t.noteErr e)
        | (t, none) =>
          let t1 := t.modCe (fun x => { x with carries := x.carries.map (fun j => if j = k then { j with complete := true } else j) })
          let t2 := t1.modGroup g (fun x => { x with cur := x.cur.map (fun c => if c.1 = st ∧ c.2.2 = b then (st, s.now - k.start, b) else c) })
          match t2.ceFind g b ((st + 1) % 65536) with
          | some c => .next (t2.ceTry c)
          | none => .next t2

/-! ## Completion (R343, R345, R346) -/

/-- Every block has passed each axis step, and every owned block is converted. -/
def CeBucket.reduced (c : CeBucket) (g : Geo) : Bool :=
  (List.range g.lens.length).all (fun i => Tbl.get 0 c.passed i == g.heldUnits i) && c.conv == c.segs.getD g.rank 0
/-- Every other rank's bytes are here. -/
def CeBucket.gathered (c : CeBucket) (g : Geo) : Bool :=
  (List.range g.size).all (fun r => r == g.rank || Tbl.get 0 c.got r == c.segs.getD r 0 * c.unit)

/-- The bucket can complete now. -/
def State.ceDone (s : State) (c : CeBucket) : Bool :=
  let g := s.geo c.group c.segs
  let run := match c.op with
    | 1 => c.reduced g
    | 2 => c.sent && c.gathered g
    | 3 => c.reduced g && c.gathered g
    | 4 => c.sent && (List.range g.size).all (fun r => Tbl.get 0 c.total r != 0 && decide (Tbl.get 0 c.total r ≤ Tbl.get 0 c.got r + 1))
    | 5 => let r := fld c.fmt 12 12; c.sent && Tbl.get 0 c.total r != 0 && decide (Tbl.get 0 c.total r ≤ Tbl.get 0 c.got r + 1)
    | _ => true
  match c.status with
  | some n => decide (n < 5) || c.detached || (!c.reduces && !c.sent) || run
  | none => run

/-- A bucket in progress on flows of which one is BROKEN or FREE completes with MEMBER_LOST; one that only waits for its record keeps its STATUS (R343). -/
def State.ceMemberLost (s : State) (c : CeBucket) : State :=
  if c.begun = false ∨ c.over = true ∨ s.cgLost c.group = false ∨ (c.status.isSome = true ∧ s.ceDone c = true) then s
  else (s.ceEnd c 4).ceEvent 1

/-- MEMBER_LOST: a flow of the group is BROKEN or FREE before the bucket completes. -/
def execMemberLost (g b st : Nat) (s : State) : Out :=
  match s.ceFind g b st with
  | none => .next s
  | some c => .next (s.ceMemberLost c)

/-- Outcome of the own contribution in a BUCKET entry (R391). -/
def CeBucket.outcome (c : CeBucket) : Nat :=
  match c.contrib with
  | .dropped => 2
  | .addLater => 3
  | .backup | .backupWait => 4
  | _ => if c.late then 1 else 0

/-- STATUS of the record. -/
def CeBucket.final (c : CeBucket) : Nat :=
  match c.status with
  | some n => n
  | none => if c.misrank.isSome then 2 else 0

/-- The four words of a record (R345), PHASE excepted. -/
def CeBucket.record (c : CeBucket) (seq : Nat) : List Word :=
  [word (c.final * 2 + c.group * 2 ^ 6 + c.bucket * 2 ^ 12 + flag c.late 24 + flag (c.contrib == .dropped || c.contrib == .addLater) 25 +
      flag (c.contrib == .backup) 26 + flag (c.carry == 2) 27 + flag (c.carry == 3) 28 + flag (c.order == 2) 29 + flag c.nonfin 30 +
      flag c.ovfl 31 + flag c.rsat 32 + flag c.partFault 33),
   word (c.index + c.step * 2 ^ 16),
   word (c.raised + c.maxExp * 2 ^ 22),
   word (c.minCnt.getD 0 + seq % 4096 * 2 ^ 14 + (if c.final = 2 then c.misrank.getD 0 % 1024 else c.empty) * 2 ^ 26)]

/-- Words of a bucket's BUCKET entry (R391). -/
def CeBucket.entry (c : CeBucket) (seq : Nat) (cdig : Bool) : List Word :=
  let l := c.taken
  let idx := (List.range (ceilDiv l.length 6)).map (fun i => word ((((l.drop (6 * i)).take 6).zipIdx.map (fun e => e.1 % 64 * 2 ^ (6 * e.2))).sum))
  [word (c.group + c.bucket * 2 ^ 6 + seq % 4096 * 2 ^ 18),
   word (c.outcome + flag (c.carry == 2) 3 + flag (c.carry == 3) 4 + c.raised * 2 ^ 5 + l.length % 128 * 2 ^ 27)] ++ idx ++
    (if cdig && c.reduces then ceDigest c.local else [])

/-- The bucket's own contribution counts in the group's history of lateness: that of a reduction, outside replay, once it stands or is complete (R341, R428). -/
def CeBucket.counts (c : CeBucket) : Bool :=
  c.reduces && c.order != 2 && c.contrib != .absent && (c.contrib != .pending || c.doneTick.isSome)

/-- Records in the queue of `q`. -/
def State.ceQueue (s : State) (q : Nat) : Nat := 2 ^ s.ctlFld (ceOff q 0) 4 4

/-- Writes a record at TAIL, word 0 with PHASE last (R280); a record that cannot be written is lost. -/
def State.ceRecord (s : State) (q : Nat) (l : List Word) : State :=
  let t := s.ctlFld (ceOff q 0x48) 0 16
  let ph := s.ctlFld (ceOff q 0x48) 16 1
  let a := s.cePair q 0x38 + BitVec.ofNat 72 (32 * t)
  match s.plainAt 1 .write a 32 with
  | .error e => s.noteErr e
  | .ok pa =>
    let s1 := s.memPut (pa + 8) ((l.drop 1).flatMap wordBytes)
    let s2 := s1.memPut pa (wordBytes (setFld (l.getD 0 0#36) 0 1 ph))
    let n := (t + 1) % s2.ceQueue q
    let w := setFld (s2.ctlGet (ceOff q 0x48)) 0 16 n
    s2.ctlSet (ceOff q 0x48) (if n = 0 then setBitAt w 16 (!bitAt w 16) else w)

/-- Clears OWN of a completed descriptor. -/
def State.ceRelease (s : State) (c : CeBucket) : State :=
  match s.plainAt 1 .write (s.cePair c.queue 0x20 + BitVec.ofNat 72 (64 * c.index)) 8 with
  | .error e => s.noteErr e
  | .ok pa => s.memPut pa (wordBytes (setBitAt c.ctrl 7 false))

/-- BUCKET_COMPLETE: record, OWN, BUCKET entry, set semaphore, history; it waits while the queue is full (R280, R338, R345, R346). -/
def State.ceComplete (s : State) (c : CeBucket) : State :=
  let q := c.queue
  let seq := (((s.ceGroup c.group).seqs.find? (fun e => e.1 == c.step)).map Prod.snd).getD 0
  let s1 := (s.ctlPut (ceOff q 0x18) 2 1 0).ceRecord q (c.record seq)
  let s2 := s1.ceRelease c
  let s3 := s2.modGroup c.group (fun x => { x with
    seqs := ((c.step, seq + 1) :: x.seqs.filter (fun e => e.1 != c.step)).take 64
    cur := if c.counts then some (c.step, c.doneTick.getD s.now - c.start, c.bucket) else x.cur })
  let s4 := s3.modCe (fun x => { x with
    buckets := x.buckets.filter (fun d => d.id != c.id)
    kept := match c.own with
      | some l => (c.group, c.bucket, c.step, l) :: x.kept.filter (fun k => !(k.1 == c.group && k.2.1 == c.bucket))
      | none => x.kept })
  let s5 := if c.readsPrev then
      let o := shOff (fld c.hdr 8 9) 0
      s4.ctlPut o 2 12 (s4.ctlFld o 2 12 - 1)
    else s4
  let s6 := s5.ephAppend 0x05 (c.entry seq s5.eph.cdig)
  let s7 := if c.final = 2 then s6.ceEvent 2 else s6
  let s8 := if bitAt c.ctrl 4 then s7.semAdd (s7.ctlFld (0x70100 + 8 * fld c.ctrl 26 4) 0 12) 1#36 else s7
  s8.ceCounts q

/-- BUCKET_COMPLETE. -/
def execBucketComplete (g b st : Nat) (s : State) : Out :=
  match s.ce.buckets.find? (fun c => c.isFor g b st && c.begun && s.ceDone c) with
  | none => .next s
  | some c =>
    if (s.ctlFld (ceOff c.queue 0x48) 0 16 + 1) % s.ceQueue c.queue = s.ctlFld (ceOff c.queue 0x50) 0 16 % s.ceQueue c.queue then
      .next (s.ctlPut (ceOff c.queue 0x18) 2 1 1)
    else .next (s.ceComplete c)

/-! ## Register writes (R327, R345, R351) -/

/-- A queue's doorbell. -/
def State.ceDoorbell (s : State) (q : Nat) : State := s.ctlPut (ceOff q 0x18) 3 1 1

/-- A write of a queue's CTRL: START, STOP, RESET in the states that they act in. -/
def State.ceCtrl (s : State) (q : Nat) (v : Word) : State :=
  let st := s.ctlFld (ceOff q 0x18) 0 2
  if bitAt v 1 then (s.ctlPut (ceOff q 0x18) 0 2 0).modCe (fun x => { x with look := Tbl.set false x.look q false })
  else if bitAt v 2 then
    if st = 0 ∧ s.ctlFld (ceOff q 0x18) 4 7 = 0 then
      (s.ctlSet (ceOff q 0x30) 0#36).ctlSet (ceOff q 0x48) (ctlReset s.variant (ceOff q 0x48))
    else s
  else if bitAt v 0 ∧ st = 0 then
    ((s.ctlPut (ceOff q 0x18) 0 2 1).modCe (fun x => { x with look := Tbl.set false x.look q true })).ceCounts q
  else s

/-- A descriptor that names a group is in progress. -/
def State.cgBusy (s : State) (g : Nat) : Bool := s.ce.buckets.any (fun c => c.begun && c.group == g)

/-- A write of SH_ADV (R345). -/
def State.shAdv (s : State) (n : Nat) (v : Word) : State :=
  if bitAt (s.ctlGet (shOff n 0)) 1 then (s.ctlPut (shOff n 0) 14 1 1).ceEvent 6
  else
    let cur := s.ctlGet (shOff n 0x10)
    (((s.ctlSet (shOff n 0x18) cur).ctlSet (shOff n 0x10) (v &&& maskOf 36 0 28)).ctlSet (shOff n 8) (s.ctlGet (shOff n 8) + 1#36)).ctlPut (shOff n 0) 1 1 1

/-- A write to the engine's block, by M, K or Alidade (R351). -/
def State.ceWrite (s : State) (o : Nat) (v : Word) : State :=
  let put := s.ctlSet o ((ctlMap s.variant o).writeVal false (s.ctlGet o) v)
  if 0x70400 ≤ o ∧ o < 0x70800 then
    let q := (o - 0x70400) / 0x80
    match (o - 0x70400) % 0x80 with
    | 0x00 => if s.ctlFld (ceOff q 0x18) 0 2 = 0 then put else s
    | 0x08 => s.ceCtrl q v
    | 0x10 => s.ceDoorbell q
    | _ => put
  else if 0x71000 ≤ o ∧ o < 0x72000 then
    let g := (o - 0x71000) / 0x40
    if s.cgBusy g then s
    else if (o - 0x71000) % 0x40 = 0 then s.cgCfg g v
    else put
  else if 0x78000 ≤ o ∧ o < 0x80000 then
    let n := (o - 0x78000) / 0x40
    match (o - 0x78000) % 0x40 with
    | 0x08 => if bitAt (s.ctlGet (shOff n 0)) 0 then s else put
    | 0x10 => if bitAt (s.ctlGet (shOff n 0)) 0 then s else put
    | 0x28 => s.shAdv n v
    | _ => put
  else put

/-- SH_HOLD_EXPIRY: at the hold tick the previous epoch goes (R345). -/
def execShHoldExpiry (n : Nat) (s : State) : Out :=
  if 512 ≤ n ∨ s.tickDue (s.ctlGet (shOff n 0x20)) = false then .next s else .next (s.ctlPut (shOff n 0) 1 1 0)

/-- A rollback stops every queue; RESET of group flows is Alidade's (R385). Carries of the step and later are discarded. -/
def State.ceRollback (s : State) (step : Nat) : State :=
  let s1 := (List.range 8).foldl (fun t q => t.ceCtrl q 2#36) s
  s1.modCe (fun x => { x with carries := x.carries.filter (fun k => decide ((k.step + 65536 - step) % 65536 ≥ 32768)) })

/-! ## Flows that open let waiting packets go -/

/-- An outcome with the engine's waiting work started. -/
def kickCe : Out → Out
  | .next s => .next s.ceKickAll
  | o => o

/-- FLOW_OPEN. -/
def execFlowOpenCe (src sflow f : Nat) (s : State) : Out := kickCe (execFlowOpen src sflow f s)
/-- FLOW_ACCEPT: buckets that waited for the flow begin (R343). -/
def execFlowAcceptCe (src sflow f : Nat) (s : State) : Out := kickCe (execFlowAccept src sflow f s)

end Sys2Proof.Machine
end

