-- ==== Sys2Proof/Machine/MulDiv.lean ====
section
/-!
DEFINITION. The multiplier and divider with their exposed results (R102, R105).
-/
namespace Sys2Proof.Machine

/-- The 72-bit product (R102). -/
def product (signed : Bool) (a b : Word) : Pair :=
  if signed then a.signExtend 72 * b.signExtend 72 else a.setWidth 72 * b.setWidth 72

/-- Issues a product; the pipeline holds three that have not landed (R105) (DESIGN CHOICE, log 20). -/
def Core.startMul (k : Core) (p : Pair) : Core :=
  let k := if 3 ≤ k.mulQ.length then k.landMul else k
  { k with mulQ := k.mulQ ++ [p] }

/-- Quotient and remainder (R102): truncation toward zero, the remainder with the dividend's sign. -/
def quotient (signed : Bool) (a b : Word) : Word × Word :=
  if signed then (a.sdiv b, a.srem b) else (a.udiv b, a.umod b)

/-- DIV and DIVU: a zero divisor sets DZ and traps when ATRAP is 1; a division that would issue early waits until the previous one has landed (R102, R105) (DESIGN CHOICE, log 20). -/
def Core.startDiv (k0 : Core) (signed : Bool) (a b : Word) : Core :=
  let k := k0.landDiv
  if b = 0#36 then
    let k := k.noteInOrder 0 [{ flags := fDZ }]
    if k.atrap then { k with pTraps := k.pTraps ++ [{ cause := 0x0B, info := 2#36, fa := 0#72, level := k.pl }] }
    else { k with divQ := some (BitVec.allOnes 36, a) }
  else { k with divQ := some (quotient signed a b) }

/-- MUL. -/
def execMul (x : Issue) (a b : Reg) (s : State) : Out :=
  .next (s.issueCore x (shOps 2) (fun k => k.startMul (product true (k.getW a) (k.getW b))))
/-- MULU. -/
def execMulu (x : Issue) (a b : Reg) (s : State) : Out :=
  .next (s.issueCore x (shOps 2) (fun k => k.startMul (product false (k.getW a) (k.getW b))))
/-- DIV. -/
def execDiv (x : Issue) (a b : Reg) (s : State) : Out :=
  .next (s.issueCore x (shOps 2) (fun k => k.startDiv true (k.getW a) (k.getW b)))
/-- DIVU. -/
def execDivu (x : Issue) (a b : Reg) (s : State) : Out :=
  .next (s.issueCore x (shOps 2) (fun k => k.startDiv false (k.getW a) (k.getW b)))
/-- RDMPL: what MPL holds at issue (R105). -/
def execRdmpl (x : Issue) (d : Reg) (s : State) : Out := .next (s.issueCore x (shOps 1) (fun k => k.setW d k.mpl))
/-- RDMPH. -/
def execRdmph (x : Issue) (d : Reg) (s : State) : Out := .next (s.issueCore x (shOps 1) (fun k => k.setW d k.mph))
/-- RDMQ. -/
def execRdmq (x : Issue) (d : Reg) (s : State) : Out := .next (s.issueCore x (shOps 1) (fun k => k.setW d k.mq))
/-- RDMREM. -/
def execRdmrem (x : Issue) (d : Reg) (s : State) : Out := .next (s.issueCore x (shOps 1) (fun k => k.setW d k.mrem))
/-- WRMPL. -/
def execWrmpl (x : Issue) (a : Reg) (s : State) : Out := .next (s.issueCore x (shOps 1) (fun k => { k with mpl := k.getW a }))
/-- WRMPH. -/
def execWrmph (x : Issue) (a : Reg) (s : State) : Out := .next (s.issueCore x (shOps 1) (fun k => { k with mph := k.getW a }))
/-- WRMQ. -/
def execWrmq (x : Issue) (a : Reg) (s : State) : Out := .next (s.issueCore x (shOps 1) (fun k => { k with mq := k.getW a }))
/-- WRMREM. -/
def execWrmrem (x : Issue) (a : Reg) (s : State) : Out := .next (s.issueCore x (shOps 1) (fun k => { k with mrem := k.getW a }))

/-- MUL_RESULT_LAND: the oldest product of a core lands (R105). -/
def execMulResultLand (c : Nat) (s : State) : Out := .next (s.modCore c Core.landMul)
/-- DIV_RESULT_LAND: the division of a core lands (R105). -/
def execDivResultLand (c : Nat) (s : State) : Out := .next (s.modCore c Core.landDiv)

end Sys2Proof.Machine
end

