-- ==== Sys2Proof/Machine/Monitor.lean ====
section
/-!
DEFINITION. The core monitor's data: task list entries (R48), the deferred queue (R363–R366) and what the monitor does when a task executes FDONE.
-/
namespace Sys2Proof.Machine

/-! ## The monitor's data -/

/-- The monitor's data for a core. -/
def State.mon (s : State) (c : Nat) : Monitor := Tbl.get {} s.monitor c

/-- Changes the monitor's data for a core. -/
def State.modMon (s : State) (c : Nat) (f : Monitor → Monitor) : State := { s with monitor := Tbl.modify {} s.monitor c f }

/-- The task list entry of a core for a frame index, when it has VALID 1 and the core may run tasks (R48, R386, R442): entry PC, argument, flags. -/
def State.taskEntry (s : State) (c i : Nat) : Option (Pair × Word × Word) :=
  match s.schedNow with
  | none => none
  | some (n, _) =>
    let e := Tbl.get (0#72, 0#36, 0#36) (s.schedOf n).tasks (c * 4096 + i)
    if bitAt e.2.2 0 && !(s.mon c).fresh && !s.isRetired c then some e else none

/-- The task of this frame. -/
def State.frameTask (s : State) (c : Nat) : Option (Pair × Word × Word) :=
  match s.frameIndex with
  | none => none
  | some i => s.taskEntry c i

/-! ## Accesses to the deferred queue (R363–R366) -/

/-- Physical address of a core's deferred queue; 0 is none. -/
def State.dqBase (s : State) (c : Nat) : Nat := Tbl.get 0 s.sched.dq c

/-- Reports that a core's deferred queue was not served, the first time after each SCHED_START (R365). -/
def State.dqReport (s : State) (c reason pa : Nat) : State :=
  if (s.mon c).reported then s
  else (s.modMon c (fun m => { m with reported := true })).logAdd 0x0014 c (reason + pa % 2 ^ 44 * 2 ^ 8)

/-- Why the monitor cannot access the word slot at a physical address: 2 detected error, 3 bus error. -/
def State.dqBad (s : State) (write : Bool) (pa : Nat) : Option Nat :=
  if (s.permits pa 8).isSome then some 3
  else if (if write then s.writeErr pa 8 else s.readErr pa 8).isSome then some 2
  else none

/-- The first of some word slots that the monitor cannot access, with the reason. -/
def State.dqFirstBad (s : State) (write : Bool) (pas : List Nat) : Option (Nat × Nat) :=
  pas.findSome? (fun pa => (s.dqBad write pa).map (fun r => (r, pa)))

/-- The monitor writes a word slot of the queue. -/
def State.dqPut (s : State) (c pa : Nat) (w : Word) : State := (s.tcTouch (c / 48) pa none none true).memPut pa (wordBytes w)

/-- The memory system's account of an access that met a detected error (R240). -/
def State.dqNote (s : State) (reason pa : Nat) : State :=
  if reason = 2 then (match s.readErr pa 8 with | some src => s.memFail src pa | none => s) else s

/-- Number of entries of the queue at `b`. -/
def State.dqSize (s : State) (b : Nat) : Nat := 2 ^ fld (s.wordAt b) 0 4

/-- Physical address of an entry. -/
def dqEntry (b i : Nat) : Nat := b + 0x40 + i * 0x20

/-- A deferred task has ended: VALID is cleared and HEAD advances; an access that fails leaves the entry as it is (R365). -/
def State.dqComplete (s : State) (c i : Nat) : State :=
  let b := s.dqBase c
  let fl := dqEntry b i + 0x18
  match s.dqFirstBad true [fl, b + 8] with
  | some (r, pa) => (s.dqNote r pa).dqReport c r pa
  | none =>
    let s1 := s.dqPut c fl (setBitAt (s.wordAt fl) 0 false)
    s1.dqPut c (b + 8) (word ((i + 1) % s.dqSize b))

/-- A deferred task is abandoned: RESTART is set and ABANDONS counts (R366). -/
def State.dqAbandon (s : State) (c i : Nat) : State :=
  let b := s.dqBase c
  let fl := dqEntry b i + 0x18
  match s.dqFirstBad true [fl, b + 0x18] with
  | some (r, pa) => (s.dqNote r pa).dqReport c r pa
  | none =>
    let s1 := s.dqPut c fl (setBitAt (s.wordAt fl) 2 true)
    s1.dqPut c (b + 0x18) (s1.wordAt (b + 0x18) + 1#36)

/-! ## FDONE (R104, R365, R456) -/

/-- The core idles at M in the monitor. -/
def Core.idleM (k : Core) : Core := { k with psw := flag k.fnest 3 |> word, run := .idle, ended := false }

/-- What the monitor does when the open task of a core has executed FDONE: a finished deferred entry leaves the queue, a task that waits can start, otherwise the FDONE is an opportunity; the core of an ended runtime context idles at M. -/
def State.taskEnded (s : State) (c : Nat) : State :=
  let m := s.mon c
  let s1 := match m.task with
    | .deferred i => s.dqComplete c i
    | _ => s
  let s2 := s1.modMon c (fun m => { m with task := .idle, opp := m.waits.isNone })
  if m.task = .runtime ∧ m.waits = none then s2.modCore c Core.idleM else s2

end Sys2Proof.Machine
end

