-- ==== Sys2Proof/Machine/System.lean ====
section
/-!
DEFINITION. The system map (R100–R104) and the return from an exception (R217, R218).
-/
namespace Sys2Proof.Machine

/-! ## The PSW and the arithmetic flags -/

/-- Fields of the PSW that software writes (03_lorroku_model); RMODE 5–7 and OVMODE 3 are reserved (R10). -/
def pswMap : RegMap := [fRW 0 2 0 0 2, fRW 2 1, fRW 3 1, fRW 4 1, fRW 5 3 0 0 4, fRW 8 2 0 0 2, fRW 10 1, fRW 11 1, fRW 12 1, fRW 13 1, fRW 14 1, fRW 15 1, fRW 16 1]

/-- The PSW after WRPSW at the current level: PL stays, FNEST only at M, SSTEP not at T (R63). -/
def Core.wrPsw (k : Core) (v : Word) : Word :=
  let w := setFld (pswMap.writeVal false k.psw v) 0 2 k.pl
  let w := if k.pl = 0 then w else setBitAt w 3 k.fnest
  if k.pl = 2 then setBitAt w 10 k.sstep else w

/-- AFLAGS (R134). -/
def aflagsMap : RegMap := [fRW 0 10, fRW 10 3 0 0 5, fRW 13 3 0 0 6]
/-- AFPOS (R134). -/
def afposMap : RegMap := [fRW 0 24]

/-- A system instruction that waits for the array instructions in flight, whose flags, PDIRTY and traps come before it (R62, R136). -/
def shWait (n : Nat) : Shape := { shSys n with before := some Core.drain }

/-! ## Machine registers (R101, R225) -/

/-- The least privileged level that may read a machine register; none for an unassigned number. -/
def rdmLevel (n : Nat) : Option Nat :=
  if n ≤ 0x0F then some 2
  else if n = 0x12 then some 2
  else if n = 0x10 ∨ n = 0x13 ∨ n = 0x15 ∨ n = 0x16 ∨ n = 0x18 ∨ (0x23 ≤ n ∧ n ≤ 0x26) ∨ (0x29 ≤ n ∧ n ≤ 0x2F) then some 1
  else if n ≤ 0x31 then some 0
  else none

/-- The least privileged level that may write a machine register; a register that no level writes is ignored at M. -/
def wrmLevel (n : Nat) : Nat :=
  if n = 0x10 ∨ n = 0x15 ∨ n = 0x18 ∨ n = 0x25 ∨ n = 0x26 ∨ (0x2B ≤ n ∧ n ≤ 0x2F) then 1 else 0

/-- Logical core number and compute die (R225). -/
def mcoreid (c : Nat) : Word := word (c + c / 48 * 256)

/-- The value of a machine register. -/
def State.rdm (s : State) (c n : Nat) : Word :=
  if n ≤ 0x0F then idReg s.variant n
  else if n = 0x10 then s.mxroot
  else if n = 0x12 then mcoreid c
  else (mregMap n).readVal ((s.core c).getMreg n)

/-- A read clears the RC fields MISSED and COUNT (R13). -/
def Core.rdmClear (k : Core) (n : Nat) : Core :=
  let new := (mregMap n).afterRead (k.getMreg n)
  if n < 0x11 ∨ n = 0x12 ∨ new = k.getMreg n then k else k.setMreg n new

/-- A core after WRM: access codes, the reserved causes of MRAISE, DEPTH_K alone at K, and the count that MSRSEED_LO clears (R130, R225). -/
def Core.wrm (k : Core) (n : Nat) (v : Word) : Core :=
  let old := k.getMreg n
  let new := (mregMap n).writeVal (n = 0x16 && bitAt old 35) old v
  let cause := fld v 0 8
  let new := if n = 0x1F ∧ ¬ (cause = 0x0C ∨ cause = 0x10 ∨ (0x20 ≤ cause ∧ cause ≤ 0x3F)) then setFld new 0 8 (fld old 0 8) else new
  let new := if n = 0x18 ∧ k.pl = 1 then setFld old 6 6 (fld v 6 6) else new
  let k := if new = old then k else k.setMreg n new
  if n = 0x2D then k.setMreg 0x2F 0#36 else k

/-- Privilege violation of a machine register access (R222). -/
def mregDenied (n : Nat) : Res := .fault 0x04 (word (1 + n * 16)) 0#72

/-- The byte of num16 after which no machine register has the number; `i` is the index of its first byte (R87, R101). -/
def numBad (n : BitVec 16) (i : Nat) : Option Nat :=
  if (rdmLevel n.toNat).isSome then none else if 0x31 < n.toNat % 256 then some i else some (i + 1)

/-! ## Return from an exception (R217) -/

/-- The REASON of a stack address that an access of `n` bytes cannot use: the lowest that holds (R106). -/
def State.stackBad (s : State) (p : Pair) (n align lo hi : Nat) : Option Nat :=
  let l := localOf p
  if fld p 0 4 % align ≠ 0 then some 0
  else if l < lo then some 1
  else if hi < l + n then some 2
  else if badTop p || !s.onDevice p then some 3
  else none

/-- Why a word slot of a frame cannot be read, or its physical address. -/
def State.slotAt (s : State) (lvl : Nat) (a : Pair) : Except XErr Nat :=
  match s.xlate lvl .read (localOf a) with
  | .error e => .error e
  | .ok (pa, _) =>
    match s.region pa, s.permits pa 8 with
    | .ctl _, _ => .error (.bus 3)
    | _, some r => .error (.bus r)
    | _, none => .ok pa

/-- Reads the eight word slots of a frame: their words, or the address and error of the failure; a frame that runs into a bus-error range fails as a whole, at its first address (R67). -/
def State.readSlots (s : State) (lvl : Nat) (f : Pair) : Except (Pair × XErr) (List Word) :=
  let slots := (List.range 8).map (fun i => f + BitVec.ofNat 72 (8 * i))
  match slots.findSome? (fun a => match s.slotAt lvl a with | .error e => some (a, e) | .ok _ => none) with
  | some (a, e) => .error (if e = .bus 1 then f else a, e)
  | none =>
    let pas := slots.filterMap (fun a => match s.slotAt lvl a with | .ok pa => some (a, pa) | .error _ => none)
    match pas.findSome? (fun p => (s.readErr p.2 8).map (fun src => (p.1, XErr.mem src p.2))) with
    | some e => .error e
    | none => .ok (pas.map (fun p => s.wordAt p.2))

/-- Takes an ERET's check fault at the level that executes it, whatever MDELEG holds (R217). -/
def State.eretFault (s : State) (c cause : Nat) (info : Word) (fa : Pair) : State :=
  let k := s.core c
  s.enter c { cause := cause, info := info, fa := fa, pc := k.pc, target := k.pl }

/-- The PSW that an ERET restores: reserved bits and reserved codes dropped, FNEST kept unless at M. -/
def Core.eretPsw (k : Core) (v : Word) : Word :=
  let w := pswMap.writeVal false (k.psw &&& maskOf 36 0 17) v
  if k.pl = 0 then w else setBitAt w 3 k.fnest

/-- The core after an ERET whose checks passed, with the frame's PSW and PC. -/
def Core.eretDone (k0 : Core) (f : Pair) (psw : Word) (pc : Pair) : Core :=
  let k := k0.landAll
  let lv := k.pl
  let d := k.depth lv - 1
  let df := k.dfActive
  let dsp := if df then k.dsp.set 0 (mkPair (k.getMreg 0x1E) (k.getMreg 0x1D)) else k.dsp.set lv (f + 64#72)
  let new := k.eretPsw psw
  let k := if df then k.setMreg 0x19 (setBitAt (k.getMreg 0x19) 0 false) else k
  let k := if lv = 0 ∧ k.inTick = true ∧ d = k.tickDepth then k.setMreg 0x11 (setBitAt (k.getMreg 0x11) 2 false) else k
  let due := k.heldTraps.filter (fun h => h.2.1 == lv && h.2.2 == d)
  let k := { k with
    psw := new, dsp := dsp, pc := pc
    pTraps := k.pTraps ++ due.map Prod.fst
    heldTraps := k.heldTraps.filter (fun h => !(h.2.1 == lv && h.2.2 == d)) }
  k.setDepth lv d

/-- ERET (R217): checks, the frame's eight slots, the restored state, and a raise that MRAISE holds (R218). -/
def State.eret (s : State) (c : Nat) : Res :=
  let k := s.core c
  if k.pl = 2 then .fault 0x04 4#36 0#72
  else
    let f := k.dsp.get k.pl
    let bad := if k.dfActive then (if f = selfPair (coreWindow c + 0xBFFC0) then none else some 0)
      else s.stackBad f 64 8 (k.dlo k.pl) (k.dhi k.pl)
    match bad with
    | some r => .stay (s.eretFault c 0x09 (word (r * 4)) f)
    | none =>
      match s.readSlots k.pl f with
      | .error (a, e) => .stay ((s.noteErr e).eretFault c (e.cause .read) (e.info .read noDest) a)
      | .ok l =>
        let entry := l.getD 7 0#36
        let psw := l.getD 0 0#36
        let r := fld psw 0 2
        if fld entry 0 2 ≠ k.pl then .stay (s.eretFault c 0x04 2#36 0#72)
        else if r = 3 ∨ r < k.pl ∨ (k.pl = 1 ∧ r < fld (k.getMreg 0x16) 0 2) then .stay (s.eretFault c 0x04 3#36 0#72)
        else
          let pc := mkPair (l.getD 2 0#36) (l.getD 1 0#36)
          let k1 := k.eretDone f psw pc
          let s := if k.pl = 0 then s.modMon c (fun m => { m with due := m.due.filter (fun d => decide (d.depth ≤ k1.depth 0)) }) else s
          if k.pl = 0 ∧ r ≠ 0 ∧ bitAt (k1.getMreg 0x1F) 8 = true then
            let m := k1.getMreg 0x1F
            let k2 := k1.setMreg 0x1F (setBitAt m 8 false)
            .stay ((s.setCore c k2).enter c
              { cause := fld m 0 8, info := k.getMreg 0x20, fa := mkPair (k.getMreg 0x31) (k.getMreg 0x30), pc := pc,
                target := 1, sync := false, raised := true })
          else .jump (s.setCore c k1) pc

/-! ## The instructions -/

/-- ERET. -/
def execEret (x : Issue) (s : State) : Out := .next (s.issue x (shWait 0) (fun s => s.eret x.core))

/-- BRK: cause 0x10 after it completes; the fault address is the BRK (R222). -/
def execBrk (x : Issue) (s : State) : Out :=
  .next (s.issueCore x (shSys 0) (fun k =>
    { k with pTraps := k.pTraps ++ [{ cause := 0x10, info := 0#36, fa := k.pc, level := k.pl }] }))

/-- WAITE: nothing issues until an exception or an enabled event is pending (R100). -/
def execWaite (x : Issue) (s : State) : Out := .next (s.issueCore x (shSys 0) (fun k => { k with run := .waiting }))

/-- RDPSW: PDIRTY as every earlier instruction leaves it (R62). -/
def execRdpsw (x : Issue) (d : Reg) (s : State) : Out := .next (s.issueCore x (shWait 1) (fun k => k.setW d k.psw))
/-- WRPSW. -/
def execWrpsw (x : Issue) (a : Reg) (s : State) : Out := .next (s.issueCore x (shWait 1) (fun k => { k with psw := k.wrPsw (k.getW a) }))
/-- RDAF: after every earlier instruction that can set the flags (R136). -/
def execRdaf (x : Issue) (d : Reg) (s : State) : Out :=
  .next (s.issueCore x (shWait 1) (fun k => k.setW d k.aflags))
/-- WRAF. -/
def execWraf (x : Issue) (a : Reg) (s : State) : Out :=
  .next (s.issueCore x (shWait 1) (fun k => { k with aflags := aflagsMap.writeVal false k.aflags (k.getW a) }))
/-- RDAMAX: reads and clears AMAXp; p at or above VPIPES is illegal (R139). -/
def execRdamax (x : Issue) (d : Reg) (p : Byte) (s : State) : Out :=
  .next (s.issueCore x { shSys 2 with bad := need (decide (p.toNat < vpipes)) 1 } (fun k =>
    (k.setW d (k.getAmax p.toNat)).setAmax p.toNat 0#36))
/-- RDCSP: the CSP bank of the current level. -/
def execRdcsp (x : Issue) (d : AReg) (s : State) : Out := .next (s.issueCore x (shSys 1) (fun k => k.setA d (k.csp.get k.pl)))
/-- WRCSP. -/
def execWrcsp (x : Issue) (a : AReg) (s : State) : Out :=
  .next (s.issueCore x (shSys 1) (fun k => { k with csp := k.csp.set k.pl (k.getA a) }))
/-- RDAFP. -/
def execRdafp (x : Issue) (d : Reg) (s : State) : Out :=
  .next (s.issueCore x (shWait 1) (fun k => k.setW d k.afpos))
/-- WRAFP. -/
def execWrafp (x : Issue) (a : Reg) (s : State) : Out :=
  .next (s.issueCore x (shWait 1) (fun k => { k with afpos := afposMap.writeVal false k.afpos (k.getW a) }))

/-- The shape of FENCE: reserved bits, an empty fence, and F without an ordered pair are illegal (R103). -/
def shFence (b : Byte) : Shape :=
  { shSys 1 with bad := need (decide (b.toNat < 64) && (b &&& 0x0F#8 != 0#8 || (bitAt b 5 && !bitAt b 4))) 0 }

/-- FENCE: with I, the core's L1 instruction cache lets its lines go, so that later fetches see every store; the orders, and with F the answers of remote accesses, hold in a model that performs accesses in program order and issues nothing while an access of the core is on the fabric (R77, R103) (DESIGN CHOICE, log 9). -/
def execFence (x : Issue) (b : Byte) (s : State) : Out :=
  .next (s.issue x (shFence b) (fun s => .next (if bitAt b 5 then { s with l1i := Tbl.set [] s.l1i x.core [] } else s)))

/-- An instruction that T may not execute. -/
def State.sysK (s : State) (x : Issue) (h : Shape) (f : State → State) : State :=
  s.issue x h (fun s => if (s.core x.core).pl = 2 then .fault 0x04 0#36 0#72 else .next (f s))

/-- XINV.ALL: every cached translation is discarded; the model's walks read the tables each time (R74). -/
def execXinvAll (x : Issue) (s : State) : Out := .next (s.sysK x (shSys 0) id)
/-- XINV (R74). -/
def execXinv (x : Issue) (_a : AReg) (s : State) : Out := .next (s.sysK x (shSys 1) id)

/-- The core after an FDONE that closes the open task, at whatever level it executes: the task's level issues nothing more (R104). -/
def Core.fdone (k : Core) : Core :=
  { k.setMreg 0x11 (setBitAt (k.getMreg 0x11) 0 false) with ended := true }

/-- FDONE: closes the open task, and the monitor takes over; without an open task it has no effect (R104, R365). -/
def execFdone (x : Issue) (s : State) : Out :=
  .next (s.issue x (shSys 0) (fun s =>
    if (s.core x.core).open then .next ((s.modCore x.core Core.fdone).taskEnded x.core) else .next s))

/-- RDM (R101). -/
def execRdm (x : Issue) (d : Reg) (n : BitVec 16) (s : State) : Out :=
  .next (s.issue x { shSys 3 with bad := numBad n 1 } (fun s =>
    let k := s.core x.core
    if (rdmLevel n.toNat).getD 0 < k.pl then mregDenied n.toNat
    else .next (s.setCore x.core ((k.rdmClear n.toNat).setW d (s.rdm x.core n.toNat)))))

/-- WRM (R101): a register that no level writes is ignored at M. -/
def execWrm (x : Issue) (n : BitVec 16) (a : Reg) (s : State) : Out :=
  .next (s.issue x { shSys 3 with bad := numBad n 0 } (fun s =>
    let k := s.core x.core
    let v := k.getW a
    if wrmLevel n.toNat < k.pl then mregDenied n.toNat
    else if n = 0x10#16 then .next { s with mxroot := v &&& maskOf 36 0 28 }
    else if n.toNat < 0x10 ∨ n = 0x12#16 then .next s
    else .next (s.setCore x.core (k.wrm n.toNat v))))

end Sys2Proof.Machine
end

