-- ==== Sys2Proof/Machine/Windows.lean ====
section
/-!
DEFINITION. The control windows as agents read and write them (R69): which level may write, what a read composes or clears, and what a write starts.
-/
namespace Sys2Proof.Machine

/-! ## Levels -/

/-- The level at which an agent accesses a register. -/
def State.agentLevel (s : State) : Agent → Nat
  | .core c => (s.core c).pl
  | .dma q => s.dmaLevel q
  | .alidade => 0
  | .host => 0

/-! ## Reading -/

/-- TICK_PHASE: nanoseconds since the tick, which time alone determines, and the frame unit they lie in: unit k begins floor(k × period / 1024) ns after the tick (R46, R49) (DESIGN CHOICE, log 17). -/
def State.tickPhase (s : State) : Word × State :=
  let (n, t) := s.fresh
  let period := max 1 (s.ctlFld 0x18 0 26)
  let ns := (Config.freeWord n).toNat % period
  (word (min 1023 (((ns + 1) * 1024 - 1) / period) + ns * 2 ^ 10), t)

/-- ARB_LOST of the input that ARB_SEL names; CLASS is 0 while no head request pends (R254, R267). -/
def State.arbLost (s : State) (i : Nat) : Word :=
  let x := s.arbX i
  let j := s.ctlFld (arbOff i 0x18) 0 7
  let h := Tbl.get 0 x.heads j
  word (Tbl.get 0 x.lost j + (h - 1) % 4 * 2 ^ 12 + flag (decide (h ≠ 0)) 14 + flag (Tbl.get false x.starved j) 15)

/-- What a register reads as, without the effects of reading it. -/
def State.ctlPeek (s : State) (by_ : Agent) (o : Nat) : Word :=
  let plain := (ctlMap s.variant o).readVal (s.ctlGet o)
  if o = 0x30 then word s.now
  else if o = 0x38 then
    match by_ with
    | .core c => Tbl.get 0#36 s.tickShadow c
    | _ => s.tickCount.extractLsb' 36 36
  else if 0x20000 ≤ o ∧ o < 0x2F000 ∧ o % 0x80 = 0x20 ∧ arbPresent s.variant ((o - 0x20000) / 0x80) = true then s.arbLost ((o - 0x20000) / 0x80)
  else if 0x71000 ≤ o ∧ o < 0x72000 ∧ o % 0x40 = 0x18 then s.cgState ((o - 0x71000) / 0x40)
  else if 0x71000 ≤ o ∧ o < 0x72000 ∧ o % 0x40 = 0x20 then word (s.cgDeadline ((o - 0x71000) / 0x40))
  else if 0x80000 ≤ o ∧ o < 0xC0000 ∧ 0x1000 ≤ o % 0x10000 ∧ o % 0x10000 < 0x1080 ∧ o % 0x20 = 8 ∧ (o - 0x80000) / 0x10000 < s.variant.dies then
    s.memStat ((o - 0x80000) / 0x10000 * 4 + (o % 0x10000 - 0x1000) / 0x20)
  else if o = 0x200050 then s.fabRoute
  else if 0x300000 ≤ o ∧ o < 0x400000 ∧ o % 0x40 = 0x28 then s.flowRoute ((o - 0x300000) / 0x40)
  else plain

/-- Reads a register: its value, and the state after the effects of the read (R13, R33, R380) (DEDUCED, log 18). -/
def State.ctlRead (s : State) (by_ : Agent) (o : Nat) : Word × State :=
  if o = 0x40 then s.tickPhase
  else
    let n := (o - 0x61000) / 16
    let s0 := if 0x61000 ≤ o ∧ o < 0x61000 + 16 * s.variant.cores ∧ o % 16 = 8 then s.linDone n else s
    let v := s0.ctlPeek by_ o
    let s1 := if o = 0x30 then
        match by_ with
        | .core c => { s0 with tickShadow := Tbl.set 0#36 s0.tickShadow c (s0.tickCount.extractLsb' 36 36) }
        | _ => s0
      else s0
    let old := s1.ctlGet o
    let new := (ctlMap s1.variant o).afterRead old
    (v, if new = old then s1 else s1.ctlSet o new)

/-! ## Writing -/

/-- A write in the tick unit (R32, R34, R45). -/
def State.tickWrite (s : State) (o : Nat) (v : Word) : State :=
  let lock := bitAt (s.ctlGet 0) 35
  let g := s.tickStage
  let upd (cur : Option Word) : Word := (ctlMap s.variant o).writeVal lock (cur.getD (s.ctlGet o)) v
  match o with
  | 0x00 => { s with tickStage := { g with ctrl := some (upd g.ctrl) } }
  | 0x10 => { s with tickStage := { g with period := some (upd g.period) } }
  | 0x20 => if s.ctlFld 0x08 4 1 = 1 then { s with tickStage := { g with next := some (upd g.next) } } else s
  | 0x28 =>
    match s.tickAhead v with
    | some d => if s.ctlFld 0x08 4 1 = 1 ∧ 16 ≤ d then s.ctlSet 0x28 v else s
    | none => s
  | 0x58 => if s.hasCore (fld v 0 8) then s.ctlPlain o v else s
  | _ => s.ctlPlain o v

/-- A write of a flow context: only while it is FREE, FC_STATE.EVT excepted (R316). -/
def State.flowWrite (s : State) (o : Nat) (v : Word) : State :=
  let f := (o - 0x300000) / 0x40
  if s.flowState f = 0 then s.ctlPlain o v
  else if o % 0x40 = 0 then s.ctlPut o 18 1 (fld v 18 1)
  else s

/-- A BASE of EPH_RING is no reserved encoding: the ring ends at or below 0x1F0_0000_0000 and lies clear of the dump region (R391, R396) (DEDUCED, log 39). -/
def ringBaseOk (b : Nat) : Bool := decide ((b + 8) * 2 ^ 30 ≤ 0x1F000000000) && b != 0

/-- A write in the Ephemeris block (R379–R393). -/
def State.ephWrite (s : State) (by_ : Agent) (o : Nat) (v : Word) : State :=
  match o with
  | 0x60010 => if s.ephOpen then s else s.ctlPlain o (if ringBaseOk (fld v 0 14) then v else setFld v 0 14 (s.ctlFld o 0 14))
  | 0x60020 => if fld v 0 4 = 0 then s.ctlPlain o v else s
  | 0x60070 => if fld v 0 4 = 0 then s.ctlPlain o v else s
  | 0x60028 => s.ephOpenWrite v
  | 0x60030 => s.ephCommitWrite v
  | 0x60048 => s.ephDigLen v
  | 0x60050 => s.ephNote v
  | 0x60058 => s.ephRecov v
  | _ =>
    if 0x61000 ≤ o ∧ o < 0x61000 + 16 * s.variant.cores ∧ o % 16 = 0 then
      let n := (o - 0x61000) / 16
      if by_ = .core n ∨ by_ = .alidade then s.linFind n v else s
    else s.ctlPlain o v

/-- A write of the fabric block (R321). -/
def State.fabWrite (s : State) (o : Nat) (v : Word) : State :=
  match o with
  | 0x200000 => s.fabCtrl v
  | 0x200018 => s.fabShape v
  | 0x200020 => s.fabCoord v
  | 0x200060 => { s with fab := { s.fab with bindCache := if bitAt v 14 then [] else s.fab.bindCache.filter (fun e => e.1 != fld v 0 14) } }
  | 0x200068 => s.flowCmdWrite v
  | _ =>
    if 0x200200 ≤ o ∧ o < 0x200480 ∧ (o - 0x200200) % 0x40 = 0 then s.fabPortCtrl ((o - 0x200200) / 0x40) v else s.ctlPlain o v

/-- A permitted write of the register at window offset `o`, with all it starts. -/
def State.ctlWrite (s : State) (by_ : Agent) (o : Nat) (v : Word) : State :=
  if o % 8 ≠ 0 then s
  else if o < 0x10000 then s.tickWrite o v
  else if o < 0x20000 then
    let i := (o - 0x10000) / 16
    if s.variant.semas ≤ i then s
    else if o % 16 = 0 then s.semPut i v
    else if s.hasCore (fld v 0 8) then s.ctlPlain o v else s
  else if 0x60000 ≤ o ∧ o < 0x70000 then s.ephWrite by_ o v
  else if 0x70000 ≤ o ∧ o < 0x80000 then s.ceWrite o v
  else if 0x80000 ≤ o ∧ o < 0xC0000 then
    let d := (o - 0x80000) / 0x10000
    if d < s.variant.dies ∧ o % 0x10000 = 8 then s.tcOpWrite d v else s.ctlPlain o v
  else if 0x100000 ≤ o ∧ o < 0x200000 then
    let q := (o - 0x100000) / 0x1000
    if dmaPresent s.variant q then s.dmaWrite q (o % 0x1000) v else s
  else if 0x200000 ≤ o ∧ o < 0x210000 then s.fabWrite o v
  else if 0x220000 ≤ o ∧ o < 0x230000 then
    let n := (o - 0x220000) / 0x100
    if o % 0x20 = 0x10 then s.cmbxPost n (o % 0x100 / 0x20) v else s.ctlPlain o v
  else if 0x300000 ≤ o ∧ o < 0x400000 then s.flowWrite o v
  else s.ctlPlain o v

/-! ## Accesses as commands -/

/-- The agent can access a register now: a core that runs, a channel that is present. -/
def State.agentLive (s : State) : Agent → Bool
  | .core c => s.live c
  | .dma q => dmaPresent s.variant q
  | .alidade => true
  | .host => false

/-- A register write by an agent: a core that may not write takes cause 0x04 with REASON 5; the write of another agent is dropped. -/
def State.agentWrite (s : State) (by_ : Agent) (o : Nat) (v : Word) : State :=
  if s.agentLive by_ = false ∨ ctlInBlock o = false ∨ o % 8 ≠ 0 then s
  else if s.ctlDenied (s.agentLevel by_) o then
    match by_ with
    | .core c => s.enter c ((s.core c).exc 0x04 5#36 0#72)
    | _ => s
  else s.ctlWrite by_ o v

/-- A register read by an agent: the value goes to the agent. -/
def State.agentRead (s : State) (by_ : Agent) (o : Nat) : State :=
  if s.agentLive by_ = false ∨ ctlInBlock o = false ∨ o % 8 ≠ 0 then s
  else if s.ctlReadDenied (s.agentLevel by_) o then
    match by_ with
    | .core c => s.enter c ((s.core c).exc 0x04 5#36 0#72)
    | _ => s
  else
    let (v, t) := s.ctlRead by_ o
    t.emit (.readVal v)

/-- TICK_CTRL_WRITE: TICK_CTRL, TICK_PERIOD or TICK_NEXT_PERIOD. -/
def execTickCtrlWrite (by_ : Agent) (which : Nat) (v : Word) (s : State) : Out :=
  .next (s.agentWrite by_ (if which = 0 then 0x00 else if which = 1 then 0x10 else 0x20) v)
/-- TICK_SWITCH_AT_WRITE. -/
def execTickSwitchAtWrite (by_ : Agent) (v : Word) (s : State) : Out := .next (s.agentWrite by_ 0x28 v)
/-- TICK_COUNT_LO_READ. -/
def execTickCountLoRead (by_ : Agent) (s : State) : Out := .next (s.agentRead by_ 0x30)
/-- TC_OP_GO: a write of TC_OP of a die. -/
def execTcOpGo (by_ : Agent) (die : Nat) (v : Word) (s : State) : Out :=
  if s.variant.dies ≤ die then .next s else .next (s.agentWrite by_ (dieOff die + 8) v)

/-- The value that an atomic or store leaves: 0 store, 1 AMOADD, 2 AMOSWAP, 3 CAS with an expected value (R99). -/
def amoNew (op : Nat) (old v e : Word) : Word :=
  match op with
  | 1 => old + v
  | 3 => if old = e then v else old
  | _ => v

/-- SEM_COUNT_UPDATE: a store or an atomic on a semaphore; an atomic's old value goes to the agent (R249, R250). -/
def execSemCountUpdate (by_ : Agent) (i op : Nat) (v e : Word) (s : State) : Out :=
  if s.variant.semas ≤ i ∨ s.agentLive by_ = false then .next s
  else
    let old := s.ctlGet (semOff i)
    let t := if op = 0 then s else s.emit (.readVal old)
    .next (t.semPut i (amoNew op old v e))

/-- CMBX_POST. -/
def execCmbxPost (by_ : Agent) (n k : Nat) (v : Word) (s : State) : Out :=
  if 256 ≤ n ∨ 8 ≤ k then .next s else .next (s.agentWrite by_ (cmbxOff n k 0x10) v)

/-- A write to a register of DMA channel `q`. -/
def State.dmaCommand (s : State) (by_ : Agent) (q r : Nat) (v : Word) : State :=
  if dmaPresent s.variant q then s.agentWrite by_ (dmaOff q r) v else s

/-- DMA_DOORBELL. -/
def execDmaDoorbell (by_ : Agent) (q : Nat) (s : State) : Out := .next (s.dmaCommand by_ q 0x10 0#36)
/-- DMA_START. -/
def execDmaStart (by_ : Agent) (q : Nat) (s : State) : Out := .next (s.dmaCommand by_ q 0x08 1#36)
/-- DMA_STOP. -/
def execDmaStop (by_ : Agent) (q : Nat) (s : State) : Out := .next (s.dmaCommand by_ q 0x08 2#36)
/-- DMA_ABORT. -/
def execDmaAbort (by_ : Agent) (q : Nat) (s : State) : Out := .next (s.dmaCommand by_ q 0x08 4#36)
/-- DMA_RESUME. -/
def execDmaResume (by_ : Agent) (q : Nat) (s : State) : Out := .next (s.dmaCommand by_ q 0x08 8#36)
/-- DMA_SKIP. -/
def execDmaSkip (by_ : Agent) (q : Nat) (s : State) : Out := .next (s.dmaCommand by_ q 0x08 16#36)
/-- DMA_RESET. -/
def execDmaReset (by_ : Agent) (q : Nat) (s : State) : Out := .next (s.dmaCommand by_ q 0x08 32#36)

/-- A FAB_CTRL value that keeps ENABLE and AUTH. -/
def State.fabKeep (s : State) : Word := s.ctlGet 0x200000 &&& 3#36

/-- FAB_ENABLE: FAB_CTRL with ENABLE as given and AUTH kept. -/
def execFabEnable (by_ : Agent) (on : Bool) (s : State) : Out := .next (s.agentWrite by_ 0x200000 (setBitAt s.fabKeep 0 on))
/-- FAB_AUTH: FAB_CTRL with AUTH as given and ENABLE kept. -/
def execFabAuth (by_ : Agent) (on : Bool) (s : State) : Out := .next (s.agentWrite by_ 0x200000 (setBitAt s.fabKeep 1 on))
/-- FAB_DRAIN. -/
def execFabDrain (by_ : Agent) (s : State) : Out := .next (s.agentWrite by_ 0x200000 (setBitAt s.fabKeep 2 true))
/-- FAB_REJOIN. -/
def execFabRejoin (by_ : Agent) (s : State) : Out := .next (s.agentWrite by_ 0x200000 (setBitAt s.fabKeep 3 true))
/-- FAB_PORT_RETRAIN: FAB_PORT_CTRL.RETRAIN with DISABLE kept. -/
def execFabPortRetrain (by_ : Agent) (p : Nat) (s : State) : Out :=
  if s.variant.ports ≤ p then .next s else .next (s.agentWrite by_ (portOff p 0) (setBitAt (s.ctlGet (portOff p 0)) 1 true))

/-- A write of FAB_FLOW_CMD. -/
def State.flowCommand (s : State) (by_ : Agent) (f op : Nat) : State := s.agentWrite by_ 0x200068 (word (f % 16384 + op * 2 ^ 14))
/-- FLOW_CMD_LISTEN. -/
def execFlowCmdListen (by_ : Agent) (f : Nat) (s : State) : Out := .next (s.flowCommand by_ f 1)
/-- FLOW_CMD_OPEN. -/
def execFlowCmdOpen (by_ : Agent) (f : Nat) (s : State) : Out := .next (s.flowCommand by_ f 2)
/-- FLOW_CMD_CLOSE. -/
def execFlowCmdClose (by_ : Agent) (f : Nat) (s : State) : Out := .next (s.flowCommand by_ f 3)
/-- FLOW_CMD_RESET. -/
def execFlowCmdReset (by_ : Agent) (f : Nat) (s : State) : Out := .next (s.flowCommand by_ f 4)
/-- FAB_BIND_INV: the cached entry of a device, or every entry, is discarded (R319). -/
def execFabBindInv (by_ : Agent) (v : Word) (s : State) : Out := .next (s.agentWrite by_ 0x200060 v)

/-- A write to a register of collective queue `q`. -/
def State.ceCommand (s : State) (by_ : Agent) (q r : Nat) (v : Word) : State := if q < 8 then s.agentWrite by_ (ceOff q r) v else s
/-- CE_QUEUE_DOORBELL. -/
def execCeQueueDoorbell (by_ : Agent) (q : Nat) (s : State) : Out := .next (s.ceCommand by_ q 0x10 0#36)
/-- CE_QUEUE_START. -/
def execCeQueueStart (by_ : Agent) (q : Nat) (s : State) : Out := .next (s.ceCommand by_ q 0x08 1#36)
/-- CE_QUEUE_STOP. -/
def execCeQueueStop (by_ : Agent) (q : Nat) (s : State) : Out := .next (s.ceCommand by_ q 0x08 2#36)
/-- CE_QUEUE_RESET. -/
def execCeQueueReset (by_ : Agent) (q : Nat) (s : State) : Out := .next (s.ceCommand by_ q 0x08 4#36)
/-- SH_ADV. -/
def execShAdv (by_ : Agent) (n : Nat) (v : Word) (s : State) : Out := if n < 512 then .next (s.agentWrite by_ (shOff n 0x28) v) else .next s
/-- LIN_FIND. -/
def execLinFind (by_ : Agent) (n : Nat) (v : Word) (s : State) : Out := if s.hasCore n then .next (s.agentWrite by_ (linOff n) v) else .next s
/-- EPH_OPEN. -/
def execEphOpen (by_ : Agent) (v : Word) (s : State) : Out := .next (s.agentWrite by_ 0x60028 v)
/-- EPH_COMMIT. -/
def execEphCommit (by_ : Agent) (v : Word) (s : State) : Out := .next (s.agentWrite by_ 0x60030 v)
/-- EPH_DIG_LEN. -/
def execEphDigLen (by_ : Agent) (v : Word) (s : State) : Out := .next (s.agentWrite by_ 0x60048 v)
/-- EPH_NOTE. -/
def execEphNote (by_ : Agent) (v : Word) (s : State) : Out := .next (s.agentWrite by_ 0x60050 v)
/-- EPH_RECOV_WRITE. -/
def execEphRecovWrite (by_ : Agent) (v : Word) (s : State) : Out := .next (s.agentWrite by_ 0x60058 v)

end Sys2Proof.Machine
end

