-- ==== Sys2Proof/Machine/ScalarMem.lean ====
section
/-!
DEFINITION. Scalar memory access: loads, stores, atomics, the two stacks (R64, R65, R99, R106, R107), and how an access of a core ends (R223).
-/
namespace Sys2Proof.Machine

/-! ## One access of a core -/

/-- The result of one access. -/
inductive Acs where
  /-- Performed: the bytes read. -/
  | done (l : List Byte) (s : State)
  /-- Failed; `late` when the failure comes back after issue (R223). -/
  | err (e : XErr) (late : Bool)
  /-- A control-window register that the level may not access this way. -/
  | denied
  /-- The address is on another device. -/
  | remote

/-- The slots of an access of `n` bytes: a pair is two words, which two pages may hold (R64). -/
def slotAddrs (a : Pair) (n : Nat) : List (Pair × Nat) := if n = 16 then [(a, 8), (a + 8#72, 8)] else [(a, n)]

/-- Physical place of one slot of an access; an error that the CXL tier returns comes after issue. -/
def State.slotPlace (s : State) (lvl : Nat) (need : Need) (p : Pair × Nat) : Except (XErr × Bool) (Nat × Option PageAttr) :=
  match s.xlate lvl need (localOf p.1) with
  | .error e => .error (e, false)
  | .ok (pa, h) =>
    match s.permits pa p.2 with
    | some r => .error (.bus r, s.region pa == .cxl)
    | none => .ok (pa, h)

/-- Physical places of an access; a pair in a control window is an access of the wrong size (R69). -/
def State.places (s : State) (lvl : Nat) (need : Need) (a : Pair) (n : Nat) : Except (XErr × Bool) (List (Nat × Option PageAttr × Nat)) :=
  (slotAddrs a n).foldl (fun acc p => match acc with
    | .error e => .error e
    | .ok l => match s.slotPlace lvl need p with
      | .error e => .error e
      | .ok (pa, h) => match s.region pa with
        | .ctl _ => if n = 16 then .error (.bus 3, false) else .ok (l ++ [(pa, h, p.2)])
        | _ => .ok (l ++ [(pa, h, p.2)])) (.ok [])

/-- The window offset when an access is to a control window (DEDUCED, log 15). -/
def State.placeCtl (s : State) (l : List (Nat × Option PageAttr × Nat)) : Option Nat :=
  match l with
  | [(pa, _, _)] => match s.region pa with | .ctl o => some o | _ => none
  | _ => none

/-- A core's own local store holds an address. -/
def State.ownLs (s : State) (c pa : Nat) : Bool := match s.region pa with | .ls n _ => n == c | _ => false

/-- The first detected error that an access meets. -/
def State.placeErr (s : State) (l : List (Nat × Option PageAttr × Nat)) (write : Bool) : Option (Nat × Nat) :=
  l.findSome? (fun p => (if write then s.writeErr p.1 p.2.2 else s.readErr p.1 p.2.2).map (fun src => (src, p.1)))

/-- Cache bookkeeping of a core's access. -/
def State.touchAll (s : State) (c : Nat) (l : List (Nat × Option PageAttr × Nat)) (write : Bool) : State :=
  l.foldl (fun t p => if write then t.coreWrite c p.1 p.2.1 else t.coreRead c p.1 p.2.1) s

/-- A load of `n` bytes by core `c` at a level. -/
def State.loadAcs (s : State) (c lvl : Nat) (a : Pair) (n : Nat) : Acs :=
  if badTop a then .err (.bus 0) false
  else if !s.onDevice a then .remote
  else
    match s.places lvl .read a n with
    | .error (e, late) => .err e late
    | .ok l =>
      match s.placeCtl l with
      | some o =>
        if s.ctlReadDenied lvl o then .denied
        else
          let (v, t) := s.ctlRead (.core c) o
          .done (wordBytes v) t
      | none =>
        match s.placeErr l false with
        | some (src, pa) => .err (.mem src pa) (!s.ownLs c pa)
        | none => .done (l.flatMap (fun p => s.bytesAt p.1 p.2.2)) (s.touchAll c l false)

/-- Writes the bytes of an access at its places: one access where they are adjacent. -/
def State.putAt (s : State) (l : List (Nat × Option PageAttr × Nat)) (b : List Byte) : State :=
  match l with
  | [(pa, _, n), (qa, _, _)] => if qa = pa + n then s.memPut pa b else ((s.memQuiet pa (b.take n)).memQuiet qa (b.drop n)).bumpAny [(pa, n), (qa, n)]
  | [(pa, _, _)] => s.memPut pa b
  | _ => s

/-- A store of bytes by core `c` at a level. -/
def State.storeAcs (s : State) (c lvl : Nat) (a : Pair) (b : List Byte) : Acs :=
  if badTop a then .err (.bus 0) false
  else if !s.onDevice a then .remote
  else
    match s.places lvl .write a b.length with
    | .error (e, late) => .err e late
    | .ok l =>
      match s.placeCtl l with
      | some o => if s.ctlDenied lvl o then .denied else .done [] (s.ctlWrite (.core c) o (wordOfBytes b))
      | none =>
        match s.placeErr l true with
        | some (src, pa) => .err (.mem src pa) (!s.ownLs c pa)
        | none => .done [] ((s.touchAll c l true).putAt l b)

/-- An atomic on the word at an address (R99): 1 AMOADD, 2 AMOSWAP, 3 CAS; in the control windows only on SEM_COUNT (R69); that of an absent semaphore reads as zero and is not written (R8) (DEDUCED, log 15). -/
def State.amoAcs (s : State) (c lvl : Nat) (a : Pair) (op : Nat) (v e : Word) : Acs :=
  if badTop a then .err (.bus 0) false
  else if !s.onDevice a then .remote
  else
    match s.places lvl .both a 8 with
    | .error (e, late) => .err e late
    | .ok l =>
      match s.placeCtl l with
      | some o =>
        if 0x10000 ≤ o ∧ o < 0x20000 ∧ o % 16 = 0 then
          if (o - 0x10000) / 16 < s.variant.semas then
            let old := s.ctlGet o
            .done (wordBytes old) (s.semPut ((o - 0x10000) / 16) (amoNew op old v e))
          else .done (wordBytes 0#36) s
        else .err (.bus 3) false
      | none =>
        match s.placeErr l false with
        | some (src, pa) => .err (.mem src pa) (!s.ownLs c pa)
        | none =>
          let old := wordOfBytes (l.flatMap (fun p => s.bytesAt p.1 p.2.2))
          let new := amoNew op old v e
          let t := l.foldl (fun t p => t.atomicTouch p.1 p.2.1) s
          .done (wordBytes old) (if op = 3 ∧ old ≠ e then t else t.putAt l (wordBytes new))

/-! ## How an instruction's access ends -/

/-- A register after a load's bytes arrive, for w and a destinations. -/
def RemDest.toReg (d : RemDest) (l : List Byte) (k : Core) : Core :=
  match d with
  | .w r 0 => k.setW r (wordOfBytes l)
  | .w r 1 => k.setW r (sx 36 (halfOfBytes l))
  | .w r 2 => k.setW r (zx 36 (halfOfBytes l))
  | .w r 3 => k.setW r (zx 36 (BitVec.ofNat 8 (natOfBytes (l.take 1))))
  | .w r 4 => k.setW r (sx 36 (BitVec.ofNat 8 (natOfBytes (l.take 1))))
  | .w r 6 =>
    let old := wordOfBytes l
    let k1 : Core := { k with psw := ({ z := some (old == k.getW r) } : Cond).apply k.psw }
    k1.setW r old
  | .w r _ => k.setW r (wordOfBytes l)
  | .a r => k.setA r (pairOfBytes l)
  | _ => k

/-- A remote request of an instruction. -/
def Core.remReq (k : Core) (x : Issue) (h : Shape) (typ : Nat) (a : Pair) (body : List Byte) (dest : RemDest) (precise : Bool) (access : Nat) : RemReq :=
  { core := x.core, flow := 0, pseq := none, typ := typ, addr := a, body := body, dest := dest, pc := k.pc, next := k.after h x
    level := k.pl, precise := precise, access := access }

/-- A deferred report (R223). -/
def Core.report (k : Core) (e : XErr) (need : Need) (a : Pair) (dest : RemDest) : Core :=
  { k with pReports := k.pReports ++ [{ cause := e.cause need, info := e.info need (1 + dest.code * 2), fa := a, level := k.pl }] }

/-- What an instruction makes of its access: the state it leaves, a precise fault, a deferred report, or a remote request (DEDUCED, log 11). -/
def State.accessRes (s : State) (x : Issue) (a : Pair) (need : Need) (dest : RemDest) (precise : Bool) (q : RemReq)
    (done : List Byte → State → Res) : Acs → Res
  | .done l t => done l t
  | .err e late =>
    if late && !precise then .next ((s.noteErr e).modCore x.core (fun k => k.report e need a dest)) else .access e need (2 * dest.code) a
  | .denied => .fault 0x04 5#36 0#72
  | .remote => .stay (s.remoteStart q)

/-- Misaligned access (R64, R222): a scalar access and an atomic are held to it before their address is looked at, which the spec orders for vector and plate accesses alone (DEDUCED, log 11). -/
def misaligned (need : Need) (log : Nat) (a : Pair) : Res := .fault 0x02 (word (need.code + log * 4)) a

/-- A scalar load (R64). -/
def State.loadRes (s : State) (x : Issue) (h : Shape) (a : Pair) (n log : Nat) (dest : RemDest) : Res :=
  let k := s.core x.core
  if fld a 0 4 % 2 ^ log ≠ 0 then misaligned .read log a
  else
    s.accessRes x a .read dest false (k.remReq x h 1 a (reqHead k.pl (localOf a) 0 n) dest false 0)
      (fun l t => .next (t.modCore x.core (dest.toReg l))) (s.loadAcs x.core k.pl a n)

/-- A scalar store (R64). -/
def State.storeRes (s : State) (x : Issue) (h : Shape) (a : Pair) (log : Nat) (b : List Byte) : Res :=
  let k := s.core x.core
  if fld a 0 4 % 2 ^ log ≠ 0 then misaligned .write log a
  else
    s.accessRes x a .write .none false (k.remReq x h 0 a (reqHead k.pl (localOf a) 0 b.length ++ b) .none false 1)
      (fun _ t => .next t) (s.storeAcs x.core k.pl a b)

/-- An atomic (R99). -/
def State.amoRes (s : State) (x : Issue) (h : Shape) (a : Pair) (op : Nat) (d : Reg) (v : Word) : Res :=
  let k := s.core x.core
  let e := k.getW d
  let dest : RemDest := .w d (if op = 3 then 6 else 5)
  if fld a 0 3 ≠ 0 then misaligned .write 3 a
  else
    s.accessRes x a .both dest false (k.remReq x h 3 a (reqHead k.pl (localOf a) (op - 1) 8 ++ wordBytes v ++ wordBytes e) dest false 1)
      (fun l t => .next (t.modCore x.core (dest.toReg l))) (s.amoAcs x.core k.pl a op v e)

/-! ## Loads and stores (R93) -/

/-- The address of a format M instruction: as + displacement, modulo 2^72. -/
def Core.dispAddr (k : Core) (s : AReg) (i : Imm) : Pair := k.getA s + immAddr i
/-- The address of a format MX instruction: as + sx(rs) × 8. -/
def Core.indexAddr (k : Core) (s : AReg) (r : Reg) : Pair := k.getA s + (k.getW r).signExtend 72 * 8#72

/-- A load of format M. -/
def State.loadM (s : State) (x : Issue) (a : AReg) (i : Imm) (n log : Nat) (dest : RemDest) : State :=
  s.issue x (shImm 2 i) (fun s => s.loadRes x (shImm 2 i) ((s.core x.core).dispAddr a i) n log dest)
/-- A store of format M. -/
def State.storeM (s : State) (x : Issue) (a : AReg) (i : Imm) (log : Nat) (b : Core → List Byte) : State :=
  s.issue x (shImm 2 i) (fun s => s.storeRes x (shImm 2 i) ((s.core x.core).dispAddr a i) log (b (s.core x.core)))

/-- LDW. -/
def execLdw (x : Issue) (d : Reg) (a : AReg) (i : Imm) (s : State) : Out := .next (s.loadM x a i 8 3 (.w d 0))
/-- LDH. -/
def execLdh (x : Issue) (d : Reg) (a : AReg) (i : Imm) (s : State) : Out := .next (s.loadM x a i 4 2 (.w d 1))
/-- LDHU. -/
def execLdhu (x : Issue) (d : Reg) (a : AReg) (i : Imm) (s : State) : Out := .next (s.loadM x a i 4 2 (.w d 2))
/-- LDB. -/
def execLdb (x : Issue) (d : Reg) (a : AReg) (i : Imm) (s : State) : Out := .next (s.loadM x a i 1 0 (.w d 3))
/-- LDBS. -/
def execLdbs (x : Issue) (d : Reg) (a : AReg) (i : Imm) (s : State) : Out := .next (s.loadM x a i 1 0 (.w d 4))
/-- STW. -/
def execStw (x : Issue) (d : Reg) (a : AReg) (i : Imm) (s : State) : Out := .next (s.storeM x a i 3 (fun k => wordBytes (k.getW d)))
/-- STH. -/
def execSth (x : Issue) (d : Reg) (a : AReg) (i : Imm) (s : State) : Out :=
  .next (s.storeM x a i 2 (fun k => halfBytes ((k.getW d).extractLsb' 0 18)))
/-- STB. -/
def execStb (x : Issue) (d : Reg) (a : AReg) (i : Imm) (s : State) : Out := .next (s.storeM x a i 0 (fun k => bytesOf (k.getW d).toNat 1))
/-- LDA. -/
def execLda (x : Issue) (d a : AReg) (i : Imm) (s : State) : Out := .next (s.loadM x a i 16 3 (.a d))
/-- STA. -/
def execSta (x : Issue) (d a : AReg) (i : Imm) (s : State) : Out := .next (s.storeM x a i 3 (fun k => pairBytes (k.getA d)))
/-- LDWX. -/
def execLdwx (x : Issue) (d : Reg) (a : AReg) (r : Reg) (s : State) : Out :=
  .next (s.issue x (shOps 3) (fun s => s.loadRes x (shOps 3) ((s.core x.core).indexAddr a r) 8 3 (.w d 0)))
/-- STWX. -/
def execStwx (x : Issue) (d : Reg) (a : AReg) (r : Reg) (s : State) : Out :=
  .next (s.issue x (shOps 3) (fun s =>
    s.storeRes x (shOps 3) ((s.core x.core).indexAddr a r) 3 (wordBytes ((s.core x.core).getW d))))

/-- AMOADD. -/
def execAmoadd (x : Issue) (d : Reg) (a : AReg) (r : Reg) (s : State) : Out :=
  .next (s.issue x (shOps 3) (fun s => s.amoRes x (shOps 3) ((s.core x.core).getA a) 1 d ((s.core x.core).getW r)))
/-- AMOSWAP. -/
def execAmoswap (x : Issue) (d : Reg) (a : AReg) (r : Reg) (s : State) : Out :=
  .next (s.issue x (shOps 3) (fun s => s.amoRes x (shOps 3) ((s.core x.core).getA a) 2 d ((s.core x.core).getW r)))
/-- CAS. -/
def execCas (x : Issue) (d : Reg) (a : AReg) (r : Reg) (s : State) : Out :=
  .next (s.issue x (shOps 3) (fun s => s.amoRes x (shOps 3) ((s.core x.core).getA a) 3 d ((s.core x.core).getW r)))

/-! ## The stacks (R106, R107) -/

/-- A stack access of `n` bytes at `p` with the bounds of a stack: its fault, or what a local access gives. Every failure is precise, and names the destination of a pop (DEDUCED, log 12). -/
def State.stackRes (s : State) (x : Issue) (cause : Nat) (p : Pair) (n align lo hi : Nat) (store : Option (List Byte)) (dest : RemDest)
    (done : List Byte → State → Res) : Res :=
  let k := s.core x.core
  match s.stackBad p n align lo hi with
  | some r => .fault cause (word ((if store.isSome then 1 else 0) + r * 4)) p
  | none =>
    let need : Need := if store.isSome then .write else .read
    match (match store with | some b => s.storeAcs x.core k.pl p b | none => s.loadAcs x.core k.pl p n) with
    | .done l t => done l t
    | .err e _ => .access e need (2 * dest.code) p
    | .denied => .fault 0x04 5#36 0#72
    | .remote => .stay s

/-- Pushes bytes on the data stack. -/
def State.pushRes (s : State) (x : Issue) (b : List Byte) : Res :=
  let k := s.core x.core
  let p := k.getA 15#4 - BitVec.ofNat 72 b.length
  s.stackRes x 0x09 p b.length 8 (k.dlo k.pl) (k.dhi k.pl) (some b) .none (fun _ t => .next (t.modCore x.core (fun k => k.setA 15#4 p)))

/-- Pops bytes from the data stack. -/
def State.popRes (s : State) (x : Issue) (n : Nat) (dest : RemDest) (f : List Byte → Core → Core) : Res :=
  let k := s.core x.core
  let p := k.getA 15#4
  s.stackRes x 0x09 p n 8 (k.dlo k.pl) (k.dhi k.pl) none dest (fun l t =>
    .next (t.modCore x.core (fun k => f l (k.setA 15#4 (p + BitVec.ofNat 72 n)))))

/-- PUSH. -/
def execPush (x : Issue) (r : Reg) (s : State) : Out := .next (s.issue x (shOps 1) (fun s => s.pushRes x (wordBytes ((s.core x.core).getW r))))
/-- PUSHA: a15 stores the DSP as it was before. -/
def execPusha (x : Issue) (r : AReg) (s : State) : Out := .next (s.issue x (shOps 1) (fun s => s.pushRes x (pairBytes ((s.core x.core).getA r))))
/-- POP. -/
def execPop (x : Issue) (r : Reg) (s : State) : Out :=
  .next (s.issue x (shOps 1) (fun s => s.popRes x 8 (.w r 0) (fun l k => k.setW r (wordOfBytes l))))
/-- POPA: the pair loaded into a15 remains. -/
def execPopa (x : Issue) (r : AReg) (s : State) : Out :=
  .next (s.issue x (shOps 1) (fun s => s.popRes x 16 (.a r) (fun l k => k.setA r (pairOfBytes l))))

/-- The call of a target: the return pair goes on the call stack. -/
def State.callRes (s : State) (x : Issue) (h : Shape) (target : Pair) : Res :=
  let k := s.core x.core
  let p := k.csp.get k.pl - 16#72
  s.stackRes x 0x0A p 16 16 (k.clo k.pl) (k.chi k.pl) (some (pairBytes (k.after h x))) .none
    (fun _ t => .jump (t.modCore x.core (fun k => { k with csp := k.csp.set k.pl p })) target)

/-- CALL. -/
def execCall (x : Issue) (i : Imm) (s : State) : Out :=
  .next (s.issue x (shImm 0 i) (fun s => s.callRes x (shImm 0 i) ((s.core x.core).after (shImm 0 i) x + immAddr i)))
/-- CALLR. -/
def execCallr (x : Issue) (a : AReg) (s : State) : Out :=
  .next (s.issue x (shOps 1) (fun s => s.callRes x (shOps 1) ((s.core x.core).getA a)))
/-- RET. -/
def execRet (x : Issue) (s : State) : Out :=
  .next (s.issue x (shOps 0) (fun s =>
    let k := s.core x.core
    let p := k.csp.get k.pl
    s.stackRes x 0x0A p 16 16 (k.clo k.pl) (k.chi k.pl) none .none
      (fun l t => .jump (t.modCore x.core (fun k => { k with csp := k.csp.set k.pl (p + 16#72) })) (pairOfBytes l))))

end Sys2Proof.Machine
end

