-- ==== Sys2Proof/Machine/Wide.lean ====
section
/-!
DEFINITION. Accesses of many slots (R158, R159, R170–R173, R184, R207): every slot is checked before any is read or written; whole lines are written even where other lines fail.
-/
namespace Sys2Proof.Machine

/-- One slot of an access: its address and length, why it is misaligned (log of the alignment), and the first address of the row or image that it is part of; none for a lane's slot, which is an access of its own (R67). -/
structure Slot where
  addr : Pair
  len : Nat
  mis : Option Nat := none
  org : Option Pair := none

/-- A part of a slot that lies in one aligned 8-byte unit, placed: address, physical address, page. -/
structure Piece where
  addr : Pair
  pa : Nat
  hz : Option PageAttr
  len : Nat
  deriving DecidableEq, Repr

/-- Why a slot cannot be accessed. -/
inductive WErr where
  /-- Misaligned, with the log of the alignment. -/
  | mis (log : Nat)
  | acc (e : XErr)
  /-- A control-window register that the level may not access this way. -/
  | denied
  deriving DecidableEq, Repr

/-- The fault address of a failed check: a lane names its slot; a row or image names the piece that failed, or itself where it runs into a bus-error range (R67, R158, R171). -/
def Slot.faultAt (q : Slot) (e : WErr) (a : Pair) : Pair :=
  match q.org, e with
  | none, _ => q.addr
  | some o, .acc (.bus 1) => o
  | some _, _ => a

/-- A slot of at most 8 bytes cut at an 8-byte boundary. -/
def cut8 (a : Pair) (n : Nat) : List (Pair × Nat) :=
  let m := 8 - fld a 0 3
  if n ≤ m then [(a, n)] else [(a, m), (a + BitVec.ofNat 72 m, n - m)]

/-- Places one piece, or says why not. -/
def State.piece (s : State) (lvl : Nat) (need : Need) (a : Pair) (n : Nat) : Except WErr Piece :=
  if badTop a then .error (.acc (.bus 0))
  else
    match s.place lvl need a n with
    | .error e => .error (.acc e)
    | .ok (pa, h) =>
      match s.region pa with
      | .ctl o =>
        if (match need with | .read => s.ctlReadDenied lvl o | _ => s.ctlDenied lvl o) then .error .denied
        else .ok { addr := a, pa := pa, hz := h, len := n }
      | _ => .ok { addr := a, pa := pa, hz := h, len := n }

/-- Places the pieces of a slot; a failure names the piece that met it. -/
def State.slotPieces (s : State) (lvl : Nat) (need : Need) (q : Slot) : Except (WErr × Pair) (List Piece) :=
  match q.mis with
  | some log => .error (.mis log, q.addr)
  | none => (cut8 q.addr q.len).foldl (fun acc p => match acc with
    | .error e => .error e
    | .ok l => match s.piece lvl need p.1 p.2 with
      | .error e => .error (e, p.1)
      | .ok c => .ok (l ++ [c])) (.ok [])

/-- Checks every slot in order: the pieces of each, or the first failure with its slot and piece address. -/
def State.wideCheck (s : State) (lvl : Nat) (need : Need) : List Slot → Except (WErr × Slot × Pair) (List (List Piece))
  | [] => .ok []
  | q :: r =>
    match s.slotPieces lvl need q with
    | .error (e, a) => .error (e, q, a)
    | .ok l =>
      match s.wideCheck lvl need r with
      | .error e => .error e
      | .ok ls => .ok (l :: ls)

/-- The first slot, with its number, whose read meets a detected error: SRC, physical address, address of the piece. -/
def State.wideErr (s : State) (ls : List (List Piece)) : Option (Nat × Nat × Nat × Pair) :=
  ls.zipIdx.findSome? (fun l => l.1.findSome? (fun p => (s.readErr p.pa p.len).map (fun src => (l.2, src, p.pa, p.addr))))

/-- Cache bookkeeping of an access by a core, or by the hub through the home die (R231). -/
def State.whoTouch (s : State) (w : Option Nat) (pa : Nat) (page : Option PageAttr) (write : Bool) : State :=
  match w with
  | some c => if write then s.coreWrite c pa page else s.coreRead c pa page
  | none => s.agentTouch (s.homeDie pa) pa none page write
/-- The agent that reads or writes a control-window register. -/
def whoAgent : Option Nat → Agent | some c => .core c | none => .alidade

/-- Reads the pieces of one slot, for a core or for the hub. -/
def State.slotRead (s : State) (c : Option Nat) (l : List Piece) : List Byte × State :=
  l.foldl (fun acc p =>
    match acc.2.region p.pa with
    | .ctl o =>
      let (v, t) := acc.2.ctlRead (whoAgent c) o
      (acc.1 ++ wordBytes v, t)
    | _ => (acc.1 ++ acc.2.bytesAt p.pa p.len, acc.2.whoTouch c p.pa p.hz false)) ([], s)

/-- Reads every slot, in order. -/
def State.wideRead (s : State) (c : Option Nat) (ls : List (List Piece)) : List (List Byte) × State :=
  ls.foldl (fun acc l =>
    let (b, t) := acc.2.slotRead c l
    (acc.1 ++ [b], t)) ([], s)

/-- A byte of a store and the bits of it that are stored. -/
abbrev MByte := Byte × Byte

/-- Every bit of a byte of a store. -/
def whole (l : List Byte) : List MByte := l.map (fun b => (b, 0xFF#8))

/-- A piece with the bytes stored to it. -/
abbrev WPiece := Piece × List MByte

/-- Gives each piece of a slot its bytes. -/
def giveBytes : List Piece → List MByte → List WPiece
  | [], _ => []
  | p :: r, l => (p, l.take p.len) :: giveBytes r (l.drop p.len)

/-- The bits of one physical byte that a list of pieces stores (DEDUCED, log 14). -/
def bitsStored (ws : List WPiece) (pa : Nat) : Byte :=
  ws.foldl (fun m w => if w.1.pa ≤ pa ∧ pa < w.1.pa + w.1.len then m ||| (w.2.getD (pa - w.1.pa) (0#8, 0#8)).2 else m) 0#8

/-- The line, or the local store word slot, that holds a piece: start and length. -/
def State.unitOf (s : State) (pa : Nat) : Nat × Nat :=
  match s.region pa with
  | .ls _ _ => (pa / 8 * 8, 8)
  | _ => (pa / 64 * 64, 64)

/-- A piece lies in a line or slot that fails and that the store covers only in part. -/
def State.pieceFails (s : State) (ws : List WPiece) (w : WPiece) : Option Nat :=
  match s.readErr w.1.pa w.1.len with
  | none => none
  | some src =>
    let u := s.unitOf w.1.pa
    if (List.range u.2).all (fun i => bitsStored ws (u.1 + i) == 0xFF#8) then none else some src

/-- Writes one piece; the bits that are not stored keep what memory holds. -/
def State.piecePut (s : State) (c : Option Nat) (w : WPiece) : State :=
  match s.region w.1.pa with
  | .ctl o => s.ctlWrite (whoAgent c) o (wordOfBytes (w.2.map Prod.fst))
  | _ =>
    let old := s.bytesAt w.1.pa w.1.len
    let new := (old.zip w.2).map (fun b => (b.1 &&& ~~~ b.2.2) ||| (b.2.1 &&& b.2.2))
    (s.whoTouch c w.1.pa w.1.hz true).memQuiet w.1.pa new

/-- Errors of whole units that the store covers are cleared (R227, R240). -/
def State.unitScrub (s : State) (w : WPiece) : State :=
  match s.readErr w.1.pa w.1.len with
  | none => s
  | some _ =>
    match s.cellKey (s.unitOf w.1.pa).1 with
    | some k => s.scrub k (s.unitOf w.1.pa).2
    | none => s

/-- Keeps the first failure of each line or slot, at the lowest address. -/
def State.firstFails (s : State) (l : List (WPiece × Nat)) : List (Piece × Nat) :=
  (l.foldl (fun acc f =>
    let u := s.unitOf f.1.1.pa
    match acc.find? (fun g => s.unitOf g.1.pa == u) with
    | none => acc ++ [(f.1.1, f.2)]
    | some g => if f.1.1.pa < g.1.pa then acc.map (fun h => if h = g then (f.1.1, f.2) else h) else acc) [])

/-- Stores the pieces of one row or image: the failing lines and slots stay as they are, and are returned with the ranges written. -/
def State.wideCells (s : State) (c : Option Nat) (ws : List WPiece) : List (Piece × Nat) × List (Nat × Nat) × State :=
  let fails := ws.filterMap (fun w => (s.pieceFails ws w).map (fun src => (w, src)))
  let good := ws.filter (fun w => (s.pieceFails ws w).isNone)
  let s1 := good.foldl (fun t w => t.unitScrub w) s
  (s.firstFails fails, good.map (fun w => (w.1.pa, w.1.len)), good.foldl (fun t w => t.piecePut c w) s1)

/-- Stores rows or images, in order, as one store: each is judged by itself (R173), and generation counters advance once (R253). -/
def State.wideWrite (s : State) (c : Option Nat) (l : List (List WPiece)) : List (Piece × Nat) × State :=
  let r := l.foldl (fun (acc : List (Piece × Nat) × List (Nat × Nat) × State) ws =>
    let (f, b, t) := acc.2.2.wideCells c ws
    (acc.1 ++ f, acc.2.1 ++ b, t)) ([], [], s)
  (r.1, r.2.2.bumpAny r.2.1)

/-- The deferred reports of the lines and slots that a store could not write (R158, R173) (DEDUCED, log 12). -/
def State.reportFails (s : State) (c : Nat) (l : List (Piece × Nat)) : State :=
  l.foldl (fun t f => (t.noteErr (.mem f.2 f.1.pa)).modCore c (fun k => k.report (.mem f.2 f.1.pa) .write f.1.addr .none)) s

/-- A precise fault for a failed check; `dest` is DKIND and DREG, `fa` the address. -/
def wideFault (need : Need) (e : WErr) (dest : Nat) (fa : Pair) : Res :=
  match e with
  | .mis log => misaligned need log fa
  | .acc e => .access e need dest fa
  | .denied => .fault 0x04 5#36 0#72

/-- Loads every slot, or takes the first failure precisely. -/
def State.wideLoad (s : State) (c lvl dest : Nat) (l : List Slot) (done : List (List Byte) → State → Res) : Res :=
  match s.wideCheck lvl .read l with
  | .error (e, q, a) => wideFault .read e dest (q.faultAt e a)
  | .ok ls =>
    match s.wideErr ls with
    | some (i, src, pa, a) =>
      .access (.mem src pa) .read dest ((l[i]?.map (fun q => q.faultAt (.acc (.mem src pa)) a)).getD a)
    | none =>
      let (b, t) := s.wideRead (some c) ls
      done b t

/-- Gives the placed slots of one row after the other their bytes. -/
def rowPieces : List (List Piece) → List (List (Slot × List MByte)) → List (List WPiece)
  | _, [] => []
  | ls, r :: l => ((ls.zip (r.map Prod.snd)).flatMap (fun p => giveBytes p.1 p.2)) :: rowPieces (ls.drop r.length) l

/-- Stores rows or images, or takes the first failed check of any slot precisely. -/
def State.wideStore (s : State) (c lvl : Nat) (l : List (List (Slot × List MByte))) : Res :=
  match s.wideCheck lvl .write (l.flatten.map Prod.fst) with
  | .error (e, q, a) => wideFault .write e noDest (q.faultAt e a)
  | .ok ls =>
    let (fails, t) := s.wideWrite (some c) (rowPieces ls l)
    .next (t.reportFails c fails)

/-- Loads every slot in ascending order, or takes the failure at the lowest address precisely, whatever its kind; a row or image that runs into a bus-error range reads no byte (R67). -/
def State.rowLoad (s : State) (c lvl : Nat) (l : List Slot) (done : List (List Byte) → State → Res) : Res :=
  match s.wideCheck lvl .read l with
  | .error (e, q, a) =>
    let before := if e = .acc (.bus 1) then [] else l.takeWhile (fun r => r.addr != q.addr)
    match s.wideCheck lvl .read before with
    | .ok ls =>
      match s.wideErr ls with
      | some (_, src, pa, b) => .access (.mem src pa) .read noDest b
      | none => wideFault .read e noDest (q.faultAt e a)
    | .error _ => wideFault .read e noDest (q.faultAt e a)
  | .ok _ => s.wideLoad c lvl noDest l done

/-- The slots of a row or image of `n` bytes from an address, `k` bytes each. -/
def spanSlots (a : Pair) (n k : Nat) : List Slot :=
  (List.range (ceilDiv n k)).map (fun i => { addr := a + BitVec.ofNat 72 (k * i), len := min k (n - k * i), org := some a })

/-- The first slot that is not on the device of an address. -/
def straySlot (a : Pair) (l : List Slot) : Option Pair := (l.find? (fun q => fld q.addr 44 28 != fld a 44 28)).map Slot.addr

/-- The body of a request of several parts: a head for each part, then the bytes, then their bits. -/
def manyBody (lvl : Nat) (l : List Slot) (b : List MByte) : List Byte :=
  l.flatMap (fun q => reqHead lvl (localOf q.addr) 0 q.len) ++ b.map Prod.fst ++ b.map Prod.snd

end Sys2Proof.Machine
end

