-- ==== Sys2Proof/Machine/PlateMem.lean ====
section
/-!
DEFINITION. Plates and the array in memory: PLD, PST (R170–R173), the plate image (R184) and the array image (R207).
-/
namespace Sys2Proof.Machine

/-! ## Rows in memory (R119, R121, R170) -/

/-- The format of the memory image: FW's code, or the plate's. -/
def imageFmt (x : Issue) (p : Plate) : Nat := match x.fw with | some f => f.toNat | none => p.fmt

/-- Log of the alignment of a row image. -/
def rowAlign (code : Nat) : Nat := if slotLen code = 8 then 3 else 2

/-- Address of row `r`. -/
def rowAddr (a stride : Pair) (r : Nat) : Pair := a + stride * BitVec.ofNat 72 r

/-- The slots of a row's image. -/
def rowSlots (code slots : Nat) (a : Pair) : List Slot :=
  if isFp6 code then spanSlots a (imageLen code slots) 4 else spanSlots a (imageLen code slots) (slotLen code)

/-- The alignment and device checks of PLD and PST: misaligned base, misaligned stride, a row that does not lie whole on the device of row 0. -/
def rowChk (need : Need) (code rows slots : Nat) (a stride : Pair) : Option Res :=
  let log := rowAlign code
  if fld a 0 3 % 2 ^ log ≠ 0 then some (misaligned need log a)
  else if fld stride 0 3 % 2 ^ log ≠ 0 then some (misaligned need log (a + stride))
  else
    let last (r : Nat) : Pair := rowAddr a stride r + BitVec.ofNat 72 (imageLen code slots - 1)
    ((List.range rows).find? (fun r => fld (rowAddr a stride r) 44 28 != fld a 44 28 || fld (last r) 44 28 != fld a 44 28)).map (fun r =>
      .fault 0x03 ((XErr.bus 5).info need noDest) (rowAddr a stride r))

/-- PLD and PST permit FW codes 0–7 and PSO. -/
def shRow (p : Reg) : Shape := { shP 3 with fws := [0, 1, 2, 3, 4, 5, 6, 7], psoOk := true, bad := plBad p 0 }

/-! ## PLD (R171, R172) -/

/-- The stopped load's plate: LOADING with `n` rows done. -/
def Plate.loading (p : Plate) (n : Nat) : Plate := { p with status := setFld (setFld p.status 0 2 2) 2 8 n }

/-- A load begins: LOADING, ROWS_DONE 0, ZFILL as it was EMPTY; a LOADING plate continues. -/
def Plate.beginLoad (p : Plate) : Plate :=
  if p.state = 2 then p else { p.zeroed.loading 0 with status := setBitAt (p.zeroed.loading 0).status 16 (p.state == 0) }

/-- Row ROWS_DONE of a load is written whole; the last row makes the plate VALID. -/
def Core.pldRow (k : Core) (o : PldOp) (words : List Word) : Core :=
  let p := k.plate o.plate
  let r := p.rowsDone
  let q := (p.setRow r words).loading (r + 1)
  ((k.setPlate o.plate (if o.rows ≤ r + 1 then q.setState 1 else q)).dropLatch o.plate).pdirty

/-- The load in progress has a row to load. -/
def Core.pldMore (k : Core) (o : PldOp) : Bool := (k.plate o.plate).state == 2 && decide ((k.plate o.plate).rowsDone < o.rows)

/-- Address of the next row. -/
def Core.pldAddr (k : Core) (o : PldOp) : Pair := rowAddr o.base o.stride (k.plate o.plate).rowsDone

/-- The body of PLD: checks, then the load begins or continues; rows arrive by PLD_ROW_WRITE. -/
def State.pldRes (s : State) (x : Issue) (h : Shape) (p : Nat) (a stride : Pair) : Res :=
  let k := s.core x.core
  let q := k.plate p
  let ext := psoExtent x q
  let code := imageFmt x q
  match psoChk x q p 0 with
  | some e => .fault e.1 e.2 0#72
  | none =>
    match rowChk .read code ext.1 ext.2 a stride with
    | some r => r
    | none =>
      let q1 := q.beginLoad
      let o : PldOp := { plate := p, base := a, stride := stride, rows := ext.1, slots := ext.2, fmt := code, pc := k.pc, next := k.after h x }
      if q1.rowsDone < ext.1 then .stay (s.setCore x.core { (k.setPlate p q1).pdirty with pld := some o })
      else .next (s.setCore x.core (k.setPlate p (q1.setState 1)).pdirty)

/-- PLD. -/
def execPld (x : Issue) (p : Reg) (a : AReg) (r : Reg) (s : State) : Out :=
  .next (s.issue x (shRow p) (fun s =>
    s.pldRes x (shRow p) p.toNat ((s.core x.core).getA a) (((s.core x.core).getW r).signExtend 72)))

/-- A row of the load in progress is written; after the last the PLD completes. -/
def State.pldPut (s : State) (c : Nat) (o : PldOp) (l : List Byte) : State :=
  let s1 := s.modCore c (fun k => k.pldRow o (rowWords o.fmt o.slots l))
  if (s1.core c).pldMore o then s1
  else (s1.modCore c (fun k => { k with pld := none })).retire c (s.core c) o.next

/-- PLD_ROW_WRITE: between rows a pending exception is taken; otherwise the next row's data arrives and is written whole, or its failure is taken; a row on another device is requested. -/
def execPldRowWrite (c : Nat) (s : State) : Out :=
  let k := s.core c
  match k.pld with
  | none => .next s
  | some o =>
    if s.live c = false ∨ s.remoteWait c = true then .next s
    else
      match s.takePending c with
      | some t => .next t
      | none =>
        let a := k.pldAddr o
        let l := rowSlots o.fmt o.slots a
        if badTop a || s.onDevice a then
          match s.rowLoad c k.pl l (fun b t => .stay (t.pldPut c o b.flatten)) with
          | r => .next (s.finish c k o.next r)
        else
          .next (s.remoteStart { core := c, flow := 0, pseq := none, typ := 1, addr := a, addrs := l.map Slot.addr
                                 body := reqHead k.pl (localOf a) 0 (imageLen o.fmt o.slots), dest := .row, pc := k.pc, next := o.next
                                 level := k.pl, precise := true, access := 0 })

/-! ## PST (R173) -/

/-- Remote stores of a core: one request for each range, all sent in order. -/
def State.remoteStores (s : State) (x : Issue) (h : Shape) (l : List (Pair × List Slot × List Byte)) : State :=
  let k := s.core x.core
  l.foldl (fun t r => t.remoteStart { k.remReq x h 0 r.1 (reqHead k.pl (localOf r.1) 0 r.2.2.length ++ r.2.2) .none false 1 with
    addrs := r.2.1.map Slot.addr }) s

/-- A store of images of a core: one store here, or one request for each range on another device. -/
def State.imageStore (s : State) (x : Issue) (h : Shape) (l : List (Pair × List Slot × List Byte)) : Res :=
  match l with
  | [] => .next s
  | (a, _, _) :: _ =>
    if badTop a || s.onDevice a then
      s.wideStore x.core (s.core x.core).pl (l.map (fun r =>
        r.2.1.zipIdx.map (fun q => (q.1, whole ((r.2.2.drop (q.2 * (r.2.1.headD { addr := r.1, len := 8 }).len)).take q.1.len)))))
    else .stay (s.remoteStores x h l)

/-- The body of PST: every row is checked, then rows are written in ascending order. -/
def State.pstRes (s : State) (x : Issue) (h : Shape) (p : Nat) (a stride : Pair) : Res :=
  let k := s.core x.core
  let q := k.plate p
  let ext := psoExtent x q
  let code := imageFmt x q
  match firstErr [psoChk x q p 0, srcChk q p 0] with
  | some e => .fault e.1 e.2 0#72
  | none =>
    match rowChk .write code ext.1 ext.2 a stride with
    | some r => r
    | none =>
      let k1 := k.reuse x (some (p, ext.1, ext.2)) none
      (s.setCore x.core k1).imageStore x h ((List.range ext.1).map (fun r =>
        let ra := rowAddr a stride r
        (ra, rowSlots code ext.2 ra, rowBytes code ((q.row r).take ext.2))))

/-- PST. -/
def execPst (x : Issue) (p : Reg) (a : AReg) (r : Reg) (s : State) : Out :=
  .next (s.issue x (shRow p) (fun s =>
    s.pstRes x (shRow p) p.toNat ((s.core x.core).getA a) (((s.core x.core).getW r).signExtend 72)))

/-! ## The plate image (R184) -/

/-- Rows that an image of PL_CFG and PL_STATUS holds: all of a VALID plate, ROWS_DONE of a LOADING one. -/
def Plate.imageRows (p : Plate) : Nat := if p.state = 1 then p.nrows else if p.state = 2 then p.rowsDone else 0

/-- The slots of the image of a plate, as words. -/
def Plate.image (p : Plate) : List Word :=
  [p.cfg, p.status, p.fpos] ++ List.replicate 5 0#36 ++ (List.range p.imageRows).flatMap (fun r => (p.row r).take p.nslots)

/-- Why an image header is malformed: STATE 3, an extent that PLCFG refuses, ROWS_DONE above the rows, reserved bits (DEDUCED, log 24). -/
def Plate.malformed (p : Plate) : Bool :=
  p.state == 3 || decide (64 < p.nrows) || decide (64 < p.nslots) || decide (p.nrows < p.rowsDone) ||
  fld p.cfg 21 15 != 0 || fld p.status 17 19 != 0 || bitAt p.fpos 35

/-- The checks that precede an image access: alignment to 64, one device. -/
def imageChk (need : Need) (a : Pair) (l : List Slot) : Option Res :=
  if fld a 0 6 ≠ 0 then some (misaligned need 6 a)
  else (straySlot a l).map (fun b => .fault 0x03 ((XErr.bus 5).info need noDest) b)

/-- Stores an image of words at a multiple of 64. -/
def State.putImage (s : State) (x : Issue) (h : Shape) (a : Pair) (ws : List Word) : Res :=
  let l := spanSlots a (8 * ws.length) 8
  match imageChk .write a l with
  | some r => r
  | none => s.imageStore x h [(a, l, ws.flatMap wordBytes)]

/-- PLSV. -/
def execPlsv (x : Issue) (p : Reg) (a : AReg) (s : State) : Out :=
  .next (s.issue x { shP 2 with bad := plBad p 0 } (fun s =>
    let k := s.core x.core
    let ws := (k.plate p.toNat).image
    let kept := k.reuse x (some (p.toNat, (k.plate p.toNat).nrows, (k.plate p.toNat).nslots)) none
    (s.setCore x.core kept).putImage x { shP 2 with bad := plBad p 0 } (k.getA a) ws))

/-- Words of an image from its slots. -/
def imageWords (b : List (List Byte)) : List Word := b.map wordOfBytes

/-- The plate that an image header names, before its rows. -/
def headerPlate (ws : List Word) : Plate := { cfg := ws.getD 0 0#36, status := ws.getD 1 0#36, fpos := ws.getD 2 0#36 }

/-- Slots of the image whose header is given. -/
def plateWords (hd : Plate) : Nat := 8 + hd.imageRows * hd.nslots

/-- A plate restored from a whole image: its rows are written, and an image of a load that began EMPTY leaves the others zero. -/
def Core.plrs (k : Core) (p : Nat) (ws : List Word) : Core :=
  let hd := headerPlate ws
  let base := if hd.state = 2 && hd.zfill then [] else (k.plate p).rows
  let q := (List.range hd.imageRows).foldl (fun (q : Plate) r =>
    q.setRow r ((ws.drop (8 + r * hd.nslots)).take hd.nslots)) { hd with rows := base }
  ((k.setPlate p q).dropLatch p).pdirty

/-- What PLRS makes of the image it has read: the header check, then the restored plate. -/
def State.plrsEnd (s : State) (c : Nat) (p : Nat) (ws : List Word) : Res :=
  if (headerPlate ws).malformed then .fault 0x08 (plInfo p 0 2) 0#72 else .next (s.modCore c (fun k => k.plrs p ws))

/-- A read of an image on another device. -/
def State.remoteImage (s : State) (x : Issue) (h : Shape) (a : Pair) (n : Nat) (dest : RemDest) : Res :=
  let k := s.core x.core
  .stay (s.remoteStart (k.remReq x h 1 a (reqHead k.pl (localOf a) 0 n) dest true 0))

/-- The body of PLRS: the header says how long the image is; the whole image is read and checked before the plate changes. -/
def State.plrsRes (s : State) (x : Issue) (h : Shape) (p : Nat) (a : Pair) : Res :=
  let k := s.core x.core
  let head := spanSlots a 64 8
  match imageChk .read a head with
  | some r => r
  | none =>
    if badTop a || s.onDevice a then
      s.rowLoad x.core k.pl head (fun b _ =>
        let l := spanSlots a (8 * plateWords (headerPlate (imageWords b))) 8
        match imageChk .read a l with
        | some r => r
        | none => s.rowLoad x.core k.pl l (fun b t => t.plrsEnd x.core p (imageWords b)))
    else s.remoteImage x h a 64 (.plrs (BitVec.ofNat 5 p))

/-- PLRS. -/
def execPlrs (x : Issue) (p : Reg) (a : AReg) (s : State) : Out :=
  .next (s.issue x { shP 2 with bad := plBad p 0 } (fun s =>
    s.plrsRes x { shP 2 with bad := plBad p 0 } p.toNat ((s.core x.core).getA a)))

/-! ## The array image (R207) -/

/-- The cell records of a valid set: slot and 16 bits of each cell, row-major over plate row and slot. -/
def ASet.cells (a : ASet) : List Word :=
  (List.range a.n).flatMap (fun j => (List.range a.k).flatMap (fun i =>
    [(Tbl.get zeroRow a.slots j).getD i 0#36, ((Tbl.get [] a.metas j).getD i 0#16).setWidth 36]))

/-- The array image as words. -/
def Core.arrImage (k : Core) : List Word :=
  let sets := (List.range 8).map (fun i => k.aset (i + 1))
  k.arrStatus :: sets.map (fun a => a.info) ++ List.replicate 7 0#36 ++ (sets.filter (fun a => a.valid)).flatMap (fun a => a.cells)

/-- ARSV. -/
def execArsv (x : Issue) (a : AReg) (s : State) : Out :=
  .next (s.issue x (shP 1) (fun s =>
    let k := s.core x.core
    s.putImage x (shP 1) (k.getA a) k.arrImage))

/-- The set of sel `i + 1` in an image's head, without its cells. -/
def headSet (ws : List Word) (i : Nat) : ASet := { info := ws.getD (i + 1) 0#36 }

/-- Cells of the valid sets of an image before set `i`. -/
def cellsBefore (ws : List Word) (i : Nat) : Nat :=
  ((List.range i).map (fun j => let a := headSet ws j; if a.valid then a.n * a.k else 0)).sum

/-- Slots of the image whose head is given. -/
def arrWords (ws : List Word) : Nat := 16 + 2 * cellsBefore ws 8

/-- The set of sel `i + 1` in a whole image. -/
def imageSet (ws : List Word) (i : Nat) : ASet :=
  let a := headSet ws i
  if a.valid then
    let at_ (j c : Nat) : Nat := 16 + 2 * (cellsBefore ws i + j * a.k + c)
    { a with
      slots := Tbl.setMany zeroRow [] 0 ((List.range a.n).map (fun j => overlay zeroRow ((List.range a.k).map (fun c => ws.getD (at_ j c) 0#36))))
      metas := if a.mx || a.sparse then
          Tbl.setMany [] [] 0 ((List.range a.n).map (fun j => (List.range a.k).map (fun c => (ws.getD (at_ j c + 1) 0#36).setWidth 16)))
        else [] }
  else a

/-- A valid set fits its partition and holds a stationary format. -/
def ASet.fits (a : ASet) (part : Nat) : Bool :=
  extentOk part a.n a.k && (if a.mx then mxFmt a.fmt else (fmtGroup a.fmt).isSome)

/-- Why an array image is malformed. -/
def arrMalformed (ws : List Word) : Bool :=
  let st := ws.getD 0 0#36
  let part := fld st 0 2
  part == 3 || fld st 26 10 != 0 ||
  (List.range 8).any (fun i =>
    let a := headSet ws i
    let listed := bitAt st (if i % 2 = 0 then 2 + i / 2 else 6 + i / 2)
    listed != a.valid || (a.valid && (decide (partCount part ≤ i / 2) || !a.fits part)) || (a.sparse && a.mx) || fld a.info 29 7 != 0) ||
  (List.range (cellsBefore ws 8)).any (fun c => fld (ws.getD (17 + 2 * c) 0#36) 16 20 != 0)

/-- The array restored from an image; SDIRTY is set. -/
def Core.arrs (k : Core) (ws : List Word) : Core :=
  (List.range 8).foldl (fun (k : Core) i => k.setAset (i + 1) (imageSet ws i)) { k with arr := setBitAt (setFld (ws.getD 0 0#36) 2 13 0) 25 true }

/-- What ARRS makes of the image it has read. -/
def State.arrsEnd (s : State) (c : Nat) (ws : List Word) : Res :=
  if arrMalformed ws then .fault 0x08 (plInfo 0 0 9) 0#72 else .next (s.modCore c (fun k => k.arrs ws))

/-- The body of ARRS. -/
def State.arrsRes (s : State) (x : Issue) (h : Shape) (a : Pair) : Res :=
  let k := s.core x.core
  let head := spanSlots a 128 8
  match imageChk .read a head with
  | some r => r
  | none =>
    if badTop a || s.onDevice a then
      s.rowLoad x.core k.pl head (fun b _ =>
        let l := spanSlots a (8 * arrWords (imageWords b)) 8
        match imageChk .read a l with
        | some r => r
        | none => s.rowLoad x.core k.pl l (fun b t => t.arrsEnd x.core (imageWords b)))
    else s.remoteImage x h a 128 .arrs

/-- ARRS. -/
def execArrs (x : Issue) (a : AReg) (s : State) : Out :=
  .next (s.issue x (shP 1) (fun s => s.arrsRes x (shP 1) ((s.core x.core).getA a)))

end Sys2Proof.Machine
end

