-- ==== Sys2Proof/Machine/DmaRun.lean ====
section
/-!
DEFINITION. What DMA channels do (R270–R286): reading descriptors, phases, the operations, snapshots.
-/
namespace Sys2Proof.Machine

/-! ## Accesses of a channel (R269, R273) -/

/-- The horizon class that a descriptor gives its accesses. -/
def DmaDesc.hz (d : DmaDesc) : Option Nat := if bitAt d.ctrl 11 then some (fld d.ctrl 8 3) else none

/-- A range cut at line boundaries, and to word slots where it lies in a control window. -/
def State.dmaPieces (s : State) (q : Nat) (need : Need) (r : Pair × Nat) : List (Pair × Nat) :=
  (pieces r).flatMap (fun p =>
    match s.dmaSlot q need p.1 p.2 with
    | .error (.bus 3) => if p.2 % 8 = 0 then (List.range (p.2 / 8)).map (fun i => (p.1 + BitVec.ofNat 72 (8 * i), 8)) else [p]
    | _ => [p])

/-- What a run of accesses has done: bytes read or still to write, how many were written, the state, the first failure. -/
structure DmaAcc where
  st : State
  bytes : List Byte := []
  count : Nat := 0
  err : Option (Pair × XErr) := none

/-- Reads one piece. -/
def DmaAcc.read (q : Nat) (hz : Option Nat) (m : DmaAcc) (p : Pair × Nat) : DmaAcc :=
  match m.err with
  | some _ => m
  | none =>
    match m.st.dmaSlot q .read p.1 p.2 with
    | .error e => { m with err := some (p.1, e) }
    | .ok (pa, h) =>
      match m.st.region pa with
      | .ctl o =>
        let (v, t) := m.st.ctlRead (.dma q) o
        { m with st := t, bytes := m.bytes ++ wordBytes v }
      | _ => { m with st := m.st.agentTouch (m.st.agentDie (192 + q) pa) pa hz h false, bytes := m.bytes ++ m.st.bytesAt pa p.2 }

/-- Writes one piece from the bytes at hand; a piece that they do not fill is written in part. -/
def DmaAcc.write (q : Nat) (hz : Option Nat) (m : DmaAcc) (p : Pair × Nat) : DmaAcc :=
  let n := min p.2 m.bytes.length
  if m.err.isSome ∨ n = 0 then m
  else
    match m.st.dmaSlot q .write p.1 n with
    | .error e => { m with err := some (p.1, e) }
    | .ok (pa, h) =>
      let b := m.bytes.take n
      let t := match m.st.region pa with
        | .ctl o => m.st.ctlWrite (.dma q) o (wordOfBytes b)
        | _ => (m.st.agentTouch (m.st.agentDie (192 + q) pa) pa hz h true).memPut pa b
      { m with st := t, bytes := m.bytes.drop n, count := m.count + n }

/-- Reads ranges in order. -/
def State.dmaReads (s : State) (q : Nat) (hz : Option Nat) (l : List (Pair × Nat)) : DmaAcc :=
  (l.flatMap (fun r => s.dmaPieces q .read r)).foldl (DmaAcc.read q hz) { st := s }

/-- Writes bytes to ranges in order. -/
def State.dmaWrites (s : State) (q : Nat) (hz : Option Nat) (l : List (Pair × Nat)) (b : List Byte) : DmaAcc :=
  (l.flatMap (fun r => s.dmaPieces q .write r)).foldl (DmaAcc.write q hz) { st := s, bytes := b }

/-- The part of a range of a list of ranges at a byte offset. -/
def rangeAt (l : List (Pair × Nat)) (off : Nat) : Pair :=
  match l with
  | [] => 0#72
  | (a, n) :: r => if off < n ∨ r.isEmpty then a + BitVec.ofNat 72 off else rangeAt r (off - n)

/-! ## Beginning a descriptor (R270, R278, R281) -/

/-- Window offset of REGION_DEF of region `r`. -/
def regionOff (r : Nat) : Nat := 0x30000 + 16 * r

/-- The descriptor is malformed (R278); FRAME is checked apart (DEDUCED, log 33). -/
def State.descBad (s : State) (d : DmaDesc) : Bool :=
  let op := d.op
  let sf := fld d.stride 0 5
  let df := fld d.stride 5 5
  let code (c : Nat) : Bool := c != 13 && decide (c < 15)
  decide (6 < op) || bitAt d.ctrl 6 || bitAt d.aux 15 || decide (3 < fld d.aux 12 3) ||
  (op != 2 && op != 3 && op != 4 && d.stride != 0#36) ||
  (op == 3 && (decide (d.src.toNat % d.esize ≠ 0) || decide (d.dst.toNat % d.esize ≠ 0))) ||
  (op == 5 && (fld d.src 36 36 != 0 || fld d.dst 0 3 != 0 || d.len % 8 != 0)) ||
  (op == 4 && (!code sf || !code df || decide (4 < fld d.stride 10 3) || fld d.stride 13 2 == 3 || fld d.stride 31 5 != 0 ||
    d.len % (codeFmt sf).perSlot != 0 || d.len % (codeFmt df).perSlot != 0 ||
    decide (d.src.toNat % slotLen sf ≠ 0) || decide (d.dst.toNat % slotLen df ≠ 0))) ||
  (decide (1 ≤ op) && decide (op ≤ 4) && s.farAway d.src && (s.farAway d.dst || bitAt d.ctrl 12)) ||
  ((bitAt d.ctrl 12 || op == 6) && !bitAt (s.ctlGet (regionOff (fld d.aux 0 12))) 33)

/-- A PHASE descriptor of a channel in phased operation. -/
def State.isPhase (s : State) (q : Nat) (d : DmaDesc) : Bool := s.dmaSched q && bitAt d.ctrl 13

/-- FRAME is at or above the length of the active schedule. -/
def State.frameBad (s : State) (d : DmaDesc) : Bool :=
  match s.schedNow with
  | some (i, _) => decide (s.schedLen i ≤ fld d.ctrl 24 12)
  | none => false

/-- The record of a descriptor in progress. -/
def State.dmaEnd (s : State) (q status bytes high : Nat) (w3 : Word) (release : Bool) : State :=
  let x := s.dmaX q
  match x.desc with
  | none => s
  | some d =>
    let r : DmaRec := { w0 := s.dmaWord0 q status high, w1 := d.word1, w2 := word bytes, w3 := w3, status := status,
                        release := if release then some d.ctrl else none }
    (s.setDmaState q 2).setDmaX q { x with record := some r }

/-- The descriptor begins: RUNNING, with the snapshot of its region; a malformed one ends at once with DESC_ERROR. -/
def State.dmaRunDesc (s : State) (q : Nat) (d : DmaDesc) (bad : Bool) : State :=
  let s1 := ((s.dmaQuiet q).setDmaState q 2).modDmaX q (fun x =>
    { x with desc := some d, waits := none, snap := s.ctlGet (regionOff (fld d.aux 0 12) + 8) })
  if bad || s.descBad d then s1.dmaEnd q 1 0 0 0#36 true else s1

/-- The channel cannot read the descriptor at HEAD: a record without its TAG, and HALTED (DEDUCED, log 33). -/
def State.dmaNoDesc (s : State) (q : Nat) (e : XErr × Pair × Bool) : State :=
  let (n, s1) := s.fresh
  let tag := (Config.freeWord n).toNat % 2 ^ 20
  let r : DmaRec := { w0 := s1.dmaWord0 q e.1.status 0, w1 := word (s1.dmaHead q + tag * 2 ^ 16), w2 := 0#36, w3 := 0#36, status := e.1.status, release := none }
  ((s1.dmaFault q e.1 false e.2.1 e.2.2).setDmaState q 2).modDmaX q (fun x => { x with record := some r, look := false })

/-- Reads a word slot of the ring: memory through the tensor cache, a control-window register, or another device, whose answer to the whole descriptor is `res`. A failure says whether that device reported it. -/
def State.dmaGetWord (s : State) (q i : Nat) (res : RemRes) : Except (XErr × Pair × Bool) Word × State :=
  let a := s.dmaHeadAddr q + BitVec.ofNat 72 (8 * i)
  if badTop a then (.error (.bus 0, a, false), s)
  else if s.farAway a then
    match s.dmaFlow (deviceOf a) with
    | none => (.error (.bus 4, a, false), s)
    | some f =>
      match remErr [(s.dmaHeadAddr q, 64)] res, res with
      | some e, _ => (.error (e.2, e.1, true), s.dmaSend q f 1 [(a, 8)] [])
      | none, .data b => (.ok (wordOfBytes (b.drop (8 * i))), s.dmaSend q f 1 [(a, 8)] [])
      | none, _ => (.error (.bus 4, a, false), s)
  else
    match s.dmaSlot q .read a 8 with
    | .error e => (.error (e, a, false), s)
    | .ok (pa, h) =>
      match s.region pa with
      | .ctl o => let (v, t) := s.ctlRead (.dma q) o; (.ok v, t)
      | _ => (.ok (s.wordAt pa), s.agentTouch (s.agentDie (192 + q) pa) pa none h false)

/-- Reads `n` words of the descriptor at HEAD from word `i` on, up to the first that fails. -/
def State.dmaGetWords (s : State) (q i : Nat) (res : RemRes) : Nat → Except (XErr × Pair × Bool) (List Word) × State
  | 0 => (.ok [], s)
  | n + 1 =>
    match s.dmaGetWord q i res with
    | (.error e, t) => (.error e, t)
    | (.ok w, t) =>
      match t.dmaGetWords q (i + 1) res n with
      | (.error e, u) => (.error e, u)
      | (.ok l, u) => (.ok (w :: l), u)

/-- The descriptor that has been read begins, or waits for its phase. -/
def State.dmaTake (s : State) (q unit : Nat) (d : DmaDesc) : State :=
  if s.isPhase q d && !s.frameBad d && !s.descBad d then
    ((s.setDmaState q 3).ctlPut (dmaOff q 0x18) 4 1 1).modDmaX q (fun x => { x with desc := some d, waits := some (s.now, unit) })
  else s.dmaRunDesc q d (s.isPhase q d && s.frameBad d)

/-- An IDLE channel reads word 0 at HEAD, and the other words when OWN is 1 (R270, R271); `unit` is the unit of the frame now. -/
def State.dmaFetch (s : State) (q unit : Nat) (res : RemRes) : State :=
  let ring := bitAt (s.ctlGet (dmaOff q 0x18)) 10
  if s.dmaState q ≠ 1 ∨ ((s.dmaX q).look = false ∧ ring = false) ∨ s.dmaHeld (s.dmaHeadAddr q) = true then s
  else
    let s1 := if ring then s.ctlPut (dmaOff q 0x18) 10 1 0 else s
    match s1.dmaGetWord q 0 res with
    | (.error e, t) => t.dmaNoDesc q e
    | (.ok w, t) =>
      if bitAt w 7 = false then t.modDmaX q (fun x => { x with look := false })
      else
        match t.dmaGetWords q 1 res 7 with
        | (.error e, u) => u.dmaNoDesc q e
        | (.ok l, u) => (u.modDmaX q (fun x => { x with look := false })).dmaTake q unit (dmaDescOf (w :: l) (u.dmaHead q))

/-- DMA_DESCRIPTOR_FETCH; `now` is the unit of the frame, and how another device answers where the ring lies there. -/
def execDmaDescriptorFetch (q : Nat) (now : Nat × RemRes) (s : State) : Out :=
  if dmaPresent s.variant q then .next (s.dmaFetch q (now.1 % 1024) now.2) else .next s

/-- A waiting phase begins at its start point, or when the previous phase completed, whichever is later (R281). -/
def State.dmaPhase (s : State) (q unit : Nat) : State :=
  let x := s.dmaX q
  match x.desc, x.waits, s.schedNow with
  | some d, some w, some (i, t) =>
    if s.dmaState q ≠ 3 then s
    else if s.frameBad d then s.dmaRunDesc q d true
    else
      let sp := match x.phase with
        | some p => startPoint t (s.schedLen i) (fld d.ctrl 24 12) (fld d.ctrl 14 10) p true
        | none => startPoint t (s.schedLen i) (fld d.ctrl 24 12) (fld d.ctrl 14 10) w false
      let reached := decide (sp.1 < s.now) || (sp.1 == s.now && decide (sp.2 ≤ unit))
      if reached then
        let late := x.phase.isSome && (decide (sp.1 < w.1) || (sp.1 == w.1 && decide (sp.2 < w.2)))
        (s.setDmaX q { x with phase := some (s.now, unit), late := late, ranOver := false }).dmaRunDesc q d false
      else s
  | _, _, _ => s

/-- DMA_PHASE_START. -/
def execDmaPhaseStart (q unit : Nat) (s : State) : Out :=
  if dmaPresent s.variant q then .next (s.dmaPhase q (unit % 1024)) else .next s

/-! ## Operations (R275–R277, R283–R286) -/

/-- GEN_SNAP, GEN_VALID and GEN_MOVED of a record: the bits of word 0 and word 3 (R285). -/
def State.dmaGen (s : State) (q : Nat) (d : DmaDesc) : Nat × Word :=
  let x := s.dmaX q
  if bitAt d.ctrl 12 then (2 ^ 33 + flag (decide (s.ctlGet (regionOff (fld d.aux 0 12) + 8) ≠ x.snap)) 34, x.snap) else (0, 0#36)

/-- A failed descriptor: its record, and the channel halts once it is written (R283). -/
def State.dmaFailed (s : State) (q bytes : Nat) (e : Pair × XErr) (write remote : Bool) (high : Nat) (w3 : Word) : State :=
  (s.dmaFault q e.2 write e.1 remote).dmaEnd q e.2.status bytes high w3 false

/-- Bytes that two lists of physical ranges share. -/
def overlaps (l m : List (Nat × Nat)) : List (Nat × Nat) :=
  l.flatMap (fun a => m.filterMap (fun b =>
    let lo := max a.1 b.1
    let hi := min (a.1 + a.2) (b.1 + b.2)
    if lo < hi then some (lo, hi - lo) else none))

/-- Physical ranges of a list of address ranges. -/
def State.dmaPhys (s : State) (q : Nat) (need : Need) (l : List (Pair × Nat)) : List (Nat × Nat) :=
  l.flatMap (fun r => (pieces r).filterMap (fun p => match s.dmaSlot q need p.1 p.2 with | .ok (pa, _) => some (pa, p.2) | .error _ => none))

/-- The bytes that source and destination share hold nothing that the spec states (R275) (DESIGN CHOICE, log 34). -/
def State.dmaOverlap (s s0 : State) (q : Nat) (d : DmaDesc) : State :=
  (overlaps (s0.dmaPhys q .write d.dsts) (s0.dmaPhys q .read d.srcs)).foldl (fun t r =>
    let (n, t1) := t.fresh
    t1.memQuiet r.1 ((Config.freeBytes n r.2 ++ List.replicate r.2 0#8).take r.2)) s

/-- Reads a descriptor's source: here, or as another device answers. -/
def State.dmaSource (s : State) (q : Nat) (d : DmaDesc) (res : RemRes) : DmaAcc × Bool :=
  if s.farAway d.src && d.srcs.any (fun r => r.2 != 0) then
    match s.dmaFlow (deviceOf d.src) with
    | none => ({ st := s, err := some (d.src, .bus 4) }, false)
    | some f =>
      let t := s.dmaSend q f 1 d.srcs []
      match remErr d.srcs res, res with
      | none, .data b =>
        let n := (d.srcs.map (fun r => r.2)).sum
        ({ st := t, bytes := (b ++ List.replicate n 0#8).take n }, true)
      | some e, _ => ({ st := t, err := some e }, true)
      | none, _ => ({ st := t, err := some (d.src, .bus 4) }, true)
  else (s.dmaReads q d.hz d.srcs, false)

/-- Writes a descriptor's destination: here, or as packets to another device, and how that device answers. -/
def State.dmaDest (s : State) (q : Nat) (d : DmaDesc) (b : List Byte) (res : RemRes) : DmaAcc × Bool :=
  if s.farAway d.dst && d.dsts.any (fun r => r.2 != 0) then
    match s.dmaFlow (deviceOf d.dst) with
    | none => ({ st := s, err := some (d.dst, .bus 4) }, false)
    | some f =>
      let t := s.dmaSend q f 4 d.dsts b
      match remErr d.dsts res with
      | some e => ({ st := t, err := some e }, true)
      | none => ({ st := t, count := b.length }, true)
  else (s.dmaWrites q d.hz d.dsts b, false)

/-- Moves what was read through `f` to the destination and makes the record; a source that failed gives what was read before it when `part` holds. -/
def State.dmaMove (s : State) (q : Nat) (d : DmaDesc) (res : RemRes) (part : Bool) (f : List Byte → List Byte) : State :=
  let (m, far) := s.dmaSource q d res
  let gen := m.st.dmaGen q d
  let b := if m.err.isSome && !part then [] else f m.bytes
  let (w, wfar) := m.st.dmaDest q d b res
  let s1 := if far || wfar then w.st else w.st.dmaOverlap s q d
  match w.err, m.err with
  | some e, _ => s1.dmaFailed q w.count e true wfar gen.1 gen.2
  | none, some e => s1.dmaFailed q w.count e false far gen.1 gen.2
  | none, none => s1.dmaEnd q 0 w.count gen.1 gen.2 true

/-- The accesses of a descriptor wait for their flow, or for a slot of the remote pool. -/
def State.dmaWaits (s : State) (d : DmaDesc) : Bool := (!d.srcs.isEmpty && s.dmaHeld d.src) || (!d.dsts.isEmpty && s.dmaHeld d.dst)

/-- Runs the descriptor in progress when it is one of an operation and its flow takes it. -/
def State.dmaOp (s : State) (q op : Nat) (f : DmaDesc → State) : State :=
  let x := s.dmaX q
  match x.desc with
  | some d => if dmaPresent s.variant q ∧ s.dmaState q = 2 ∧ x.record = none ∧ d.op = op ∧ s.dmaWaits d = false then f d else s
  | none => s

/-- DMA_NOP. -/
def execDmaNop (q : Nat) (s : State) : Out :=
  .next (s.dmaOp q 0 (fun d => s.dmaEnd q 0 0 (s.dmaGen q d).1 (s.dmaGen q d).2 true))
/-- COPY. -/
def execCopy (q : Nat) (res : RemRes) (s : State) : Out := .next (s.dmaOp q 1 (fun d => s.dmaMove q d res true id))
/-- COPY2D. -/
def execCopy2d (q : Nat) (res : RemRes) (s : State) : Out := .next (s.dmaOp q 2 (fun d => s.dmaMove q d res true id))

/-- A matrix of `rows` by `cols` elements of `n` bytes transposed. -/
def transpose (n rows cols : Nat) (b : List Byte) : List Byte :=
  (List.range cols).flatMap (fun c => (List.range rows).flatMap (fun r => (b.drop ((r * cols + c) * n)).take n))

/-- TRANSPOSE. -/
def execTranspose (q : Nat) (res : RemRes) (s : State) : Out :=
  .next (s.dmaOp q 3 (fun d => s.dmaMove q d res false (transpose d.esize d.rows d.rowLen)))
/-- FILL: the 8-byte image of the pattern word over the destination. -/
def execFill (q : Nat) (res : RemRes) (s : State) : Out :=
  .next (s.dmaOp q 5 (fun d => s.dmaMove q d res true (fun _ => (List.replicate (d.len / 8) (wordBytes (lo36 d.src))).flatten)))
/-- GENCHK. -/
def execGenchk (q : Nat) (s : State) : Out :=
  .next (s.dmaOp q 6 (fun d =>
    let g := s.ctlGet (regionOff (fld d.aux 0 12) + 8)
    s.dmaEnd q 0 0 (2 ^ 33 + flag (decide (g ≠ d.shape)) 34) g true))

/-! ## CONVERT (R276) -/

/-- The elements of an image of slots. -/
def imageElems (code n : Nat) (b : List Byte) : List Nat :=
  let f := codeFmt code
  (rowWords code (convSlots code n) b).flatMap (fun w => (List.range f.perSlot).map (fun e => f.elem w e))

/-- One run of at most 256 elements: results, and the count after it. -/
def convRun (sf df : NumFmt) (rmode ovmode : Nat) (seed : BitVec 64) (count : Word) (e : Int) (l : List FVal) : List FRes × Word :=
  let res := l.zipIdx.map (fun v => df.convertFrom sf
    { rmode := rmode, ovmode := ovmode, draw := if rmode = 4 then stochDraw seed count (v.2 % 256) 0 else 0 } (v.1.scale e))
  (res, if res.any (fun r => r.stoch) then count + 1#36 else count)

/-- Every run of a descriptor. -/
def convRuns (sf df : NumFmt) (rmode ovmode : Nat) (seed : BitVec 64) (e : Int) (l : List FVal) : Nat → Word → List FRes × Word
  | 0, c => ([], c)
  | n + 1, c =>
    let r := convRun sf df rmode ovmode seed c e (l.take 256)
    let t := convRuns sf df rmode ovmode seed e (l.drop 256) n r.2
    (r.1 ++ t.1, t.2)

/-- INV, OVF, SAT, NANR, INFR, INX as bits of word 0 of a record. -/
def convFlags (f : Flg) : Nat :=
  (f.getLsbD 0).toNat * 2 ^ 16 + (f.getLsbD 2).toNat * 2 ^ 17 + (f.getLsbD 5).toNat * 2 ^ 18 + (f.getLsbD 6).toNat * 2 ^ 19 +
  (f.getLsbD 7).toNat * 2 ^ 20 + (f.getLsbD 4).toNat * 2 ^ 21

/-- The scale of a CONVERT: exponent, SCALED, ISC, and DMA_AMAX after the choice. -/
def convScale (conv : Word) (am : Word) (kept : Option (Int × Bool × Bool)) (src : List FVal) : (Int × Bool × Bool) × Word :=
  let exp : Int := (conv.extractLsb' 20 9).toInt
  match kept with
  | some k => (k, am)
  | none =>
    if bitAt conv 16 then
      let pre := bitAt am 35 = false ∧ bitAt conv 30 = true
      let a := if pre then src.foldl amaxFeed 0#36 else am
      if bitAt a 35 then ((chooseExp (codeFmt (fld conv 5 5)) a (fld conv 17 3), true, false), 0#36)
      else ((exp, true, true), 0#36)
    else if bitAt conv 15 then ((exp, true, false), am)
    else ((0, false, false), am)

/-- Elements of the whole slots that a prefix of an image holds. -/
def imagePart (code n got : Nat) : Nat :=
  let f := codeFmt code
  (((List.range (convSlots code n + 1)).filter (fun k => decide (imageLen code k ≤ got))).length - 1) * f.perSlot

/-- CONVERT of the descriptor in progress: a source that fails gives the elements read before it; the scale is chosen before the conversion reads, and a pre-pass that fails chooses none (R276, R283). -/
def State.dmaConvert (s : State) (q : Nat) (d : DmaDesc) (res : RemRes) : State :=
  let (m, far) := s.dmaSource q d res
  let gen := m.st.dmaGen q d
  let conv := d.stride
  let sf := codeFmt (fld conv 0 5)
  let df := codeFmt (fld conv 5 5)
  let got := if m.err.isNone then d.len else imagePart (fld conv 0 5) d.len m.bytes.length
  let n := got / df.perSlot * df.perSlot
  let src := ((imageElems (fld conv 0 5) got m.bytes).take n).map sf.decode
  let am := m.st.ctlGet (dmaOff q 0x58)
  let kept := (m.st.dmaX q).scale
  let pre := kept.isNone && bitAt conv 16 && bitAt conv 30 && !bitAt am 35
  if bitAt conv 29 || (pre && m.err.isSome) then
    let t := m.st.ctlSet (dmaOff q 0x58) (src.foldl amaxFeed (if bitAt conv 29 then am else 0#36))
    match m.err with
    | some e => t.dmaFailed q 0 e false far gen.1 gen.2
    | none => t.dmaEnd q 0 0 gen.1 gen.2 true
  else
    let sc := convScale conv am kept src
    let seed := BitVec.ofNat 64 ((m.st.ctlGet (dmaOff q 0x88)).toNat + fld (m.st.ctlGet (dmaOff q 0x90)) 0 28 * 2 ^ 36)
    let out := convRuns sf df (fld conv 10 3) (fld conv 13 2) seed sc.1.1 src (src.length / 256 + 1) (m.st.ctlGet (dmaOff q 0x98))
    let s1 := ((m.st.ctlSet (dmaOff q 0x58) (src.foldl amaxFeed sc.2)).ctlSet (dmaOff q 0x98) out.2).modDmaX q (fun x => { x with scale := some sc.1 })
    let slots := packRow df (convSlots (fld conv 5 5) n) (out.1.map (fun r => r.bits))
    let (w, wfar) := s1.dmaDest q d (rowBytes (fld conv 5 5) slots) res
    let s2 := if far || wfar then w.st else w.st.dmaOverlap s q d
    let high := gen.1 + convFlags (out.1.foldl (fun f r => f ||| r.flags) 0#9) + flag sc.1.2.2 22 +
      (if sc.1.2.1 then 2 ^ 23 + (sc.1.1 % 512).toNat * 2 ^ 24 else 0)
    match w.err, m.err with
    | some e, _ => s2.dmaFailed q w.count e true wfar high gen.2
    | none, some e => s2.dmaFailed q w.count e false far high gen.2
    | none, none => s2.dmaEnd q 0 w.count high gen.2 true

/-- CONVERT. -/
def execConvert (q : Nat) (res : RemRes) (s : State) : Out := .next (s.dmaOp q 4 (fun d => s.dmaConvert q d res))

end Sys2Proof.Machine
end

