-- ==== Sys2Proof/Machine/VectorMem.lean ====
section
/-!
DEFINITION. Vector memory (R158, R159): contiguous, strided and indexed loads and stores of a vector register.
-/
namespace Sys2Proof.Machine

/-! ## Lanes in memory (R121, R122) -/

/-- Bytes that hold lane slots of a format; an FP6 slot takes part of 5 bytes. -/
def laneLen (code : Nat) : Nat := if isFp6 code then 5 else slotLen code

/-- Offset of lane `i` of consecutive images. -/
def laneOff (code i : Nat) : Nat := if isFp6 code then 9 * (i / 2) + 4 * (i % 2) else slotLen code * i

/-- The slot of lane `i` from its bytes. -/
def laneWord (code i : Nat) (l : List Byte) : Word :=
  if isFp6 code then BitVec.ofNat 36 (natOfBytes (l.take 5) / (if i % 2 = 0 then 1 else 16)) else slotOfBytes code l

/-- The bytes of lane `i`, and the bits of them that are its own. -/
def laneBytes (code i : Nat) (w : Word) : List MByte :=
  if isFp6 code then
    if i % 2 = 0 then (bytesOf w.toNat 5).zip [0xFF#8, 0xFF#8, 0xFF#8, 0xFF#8, 0x0F#8]
    else (bytesOf (w.toNat * 16) 5).zip [0xF0#8, 0xFF#8, 0xFF#8, 0xFF#8, 0xFF#8]
  else whole (slotBytes code w)

/-! ## One vector access -/

/-- A vector access: image format, address of each lane, the log of an alignment that a lane breaks, and whether every lane must be on this device. -/
structure VecAcc where
  code : Nat := 0
  addr : Nat → Pair
  mis : Nat → Option Nat
  own : Bool := false

/-- The slot of a lane. -/
def VecAcc.slot (v : VecAcc) (i : Nat) : Slot := { addr := v.addr i, len := laneLen v.code, mis := v.mis i }

/-- The lowest active lane that is not on the device that the access names. -/
def State.strayLane (s : State) (v : VecAcc) (l : List Nat) : Option Nat :=
  match l with
  | [] => none
  | i :: _ => if v.own then l.find? (fun j => !s.onDevice (v.addr j)) else l.find? (fun j => fld (v.addr j) 44 28 != fld (v.addr i) 44 28)

/-- The lanes of a register after a load of the active lanes. -/
def Core.putLanes (k : Core) (d : Reg) (code : Nat) (act : BitVec 64) (zero : Bool) (b : List (List Byte)) : Core :=
  let new := (List.range 64).map (fun i =>
    match (lanesOf act).zip b |>.find? (fun p => p.1 == i) with
    | some p => laneWord code i p.2
    | none => 0#36)
  k.setV d (maskLanes act zero (k.getV d) new)

/-- A vector access: device check, then every active lane, then the whole access (R158). -/
def State.vecAccess (s : State) (x : Issue) (h : Shape) (v : VecAcc) (need : Need) (dest : RemDest)
    (go : State → List Slot → Res) (bytes : List MByte) : Res :=
  let k := s.core x.core
  let l := lanesOf (k.act x)
  match s.strayLane v l with
  | some i => .fault 0x03 ((XErr.bus 5).info need (2 * dest.code)) (v.addr i)
  | none =>
    match l with
    | [] => go s []
    | i :: _ =>
      let a := v.addr i
      if badTop a || s.onDevice a then go s (l.map v.slot)
      else
        match l.find? (fun j => (v.mis j).isSome) with
        | some j => misaligned need ((v.mis j).getD 0) (v.addr j)
        | none =>
          let sl := l.map v.slot
          .stay (s.remoteStart { k.remReq x h (if need = .read then 1 else 0) a (manyBody k.pl sl bytes) dest (need = .read) need.code with
            addrs := l.map v.addr })

/-- A vector load into vd. -/
def State.vecLoad (s : State) (x : Issue) (h : Shape) (v : VecAcc) (d : Reg) : Res :=
  let k := s.core x.core
  let act := k.act x
  let z := zeroing x
  s.vecAccess x h v .read (.vec d v.code act z)
    (fun s l => s.wideLoad x.core k.pl (2 * (2 + d.toNat * 4)) l (fun b t => .next (t.modCore x.core (fun k => k.putLanes d v.code act z b)))) []

/-- A vector store of vs. -/
def State.vecStore (s : State) (x : Issue) (h : Shape) (v : VecAcc) (d : Reg) : Res :=
  let k := s.core x.core
  let bs := (lanesOf (k.act x)).map (fun i => laneBytes v.code i (lane (k.getV d) i))
  s.vecAccess x h v .write .none (fun s l => s.wideStore x.core k.pl [l.zip bs]) bs.flatten

/-! ## Instructions -/

/-- Consecutive images from an address that must be a multiple of 2^log. -/
def contiguous (code log : Nat) (a : Pair) : VecAcc :=
  { code := code, addr := fun i => a + BitVec.ofNat 72 (laneOff code i)
    mis := fun _ => if fld a 0 3 % 2 ^ log = 0 then none else some log }

/-- Word slots at a stride. -/
def strided (a : Pair) (w : Word) : VecAcc :=
  let at_ (i : Nat) : Pair := a + w.signExtend 72 * BitVec.ofNat 72 i
  { addr := at_, mis := fun i => if fld (at_ i) 0 3 = 0 then none else some 3 }

/-- Word slots at indices from vi; the base's alignment is checked before. -/
def indexed (a : Pair) (vi : List Word) : VecAcc :=
  { addr := fun i => a + (lane vi i).signExtend 72 * 8#72, mis := fun _ => none, own := true }

/-- Format VM: register, address register, displacement. -/
def shVMem (i : Imm) (n : Nat) : Shape := { shV setAll (2 + n) with imm := some i, limm := 1 }

/-- VLDN and VSTN: c1 names a format of 4-byte or FP6 images. -/
def shVNar (i : Imm) (c1 : Byte) : Shape :=
  { shVMem i 1 with bad := need (decide (1 ≤ c1.toNat ∧ c1.toNat ≤ 9) || c1 == 13#8 || c1 == 14#8) (2 + immSize i) }

/-- VLD. -/
def execVld (x : Issue) (d : Reg) (a : AReg) (i : Imm) (s : State) : Out :=
  .next (s.issue x (shVMem i 0) (fun s => s.vecLoad x (shVMem i 0) (contiguous 0 3 ((s.core x.core).dispAddr a i)) d))
/-- VST. -/
def execVst (x : Issue) (d : Reg) (a : AReg) (i : Imm) (s : State) : Out :=
  .next (s.issue x (shVMem i 0) (fun s => s.vecStore x (shVMem i 0) (contiguous 0 3 ((s.core x.core).dispAddr a i)) d))
/-- VLDS. -/
def execVlds (x : Issue) (d : Reg) (a : AReg) (r : Reg) (s : State) : Out :=
  .next (s.issue x (shV setAll 3) (fun s =>
    s.vecLoad x (shV setAll 3) (strided ((s.core x.core).getA a) ((s.core x.core).getW r)) d))
/-- VSTS. -/
def execVsts (x : Issue) (d : Reg) (a : AReg) (r : Reg) (s : State) : Out :=
  .next (s.issue x (shV setAll 3) (fun s =>
    s.vecStore x (shV setAll 3) (strided ((s.core x.core).getA a) ((s.core x.core).getW r)) d))
/-- VLDN. -/
def execVldn (x : Issue) (d : Reg) (a : AReg) (i : Imm) (c1 : Byte) (s : State) : Out :=
  .next (s.issue x (shVNar i c1) (fun s =>
    s.vecLoad x (shVNar i c1) (contiguous c1.toNat 2 ((s.core x.core).dispAddr a i)) d))
/-- VSTN. -/
def execVstn (x : Issue) (d : Reg) (a : AReg) (i : Imm) (c1 : Byte) (s : State) : Out :=
  .next (s.issue x (shVNar i c1) (fun s =>
    s.vecStore x (shVNar i c1) (contiguous c1.toNat 2 ((s.core x.core).dispAddr a i)) d))
/-- VGATHER; the base must be a multiple of 8. -/
def execVgather (x : Issue) (d : Reg) (a : AReg) (i : Reg) (s : State) : Out :=
  .next (s.issue x (shV setAll 3) (fun s =>
    let k := s.core x.core
    if fld (k.getA a) 0 3 ≠ 0 then misaligned .read 3 (k.getA a)
    else s.vecLoad x (shV setAll 3) (indexed (k.getA a) (k.getV i)) d))
/-- VSCATTER; the base must be a multiple of 8. -/
def execVscatter (x : Issue) (d : Reg) (a : AReg) (i : Reg) (s : State) : Out :=
  .next (s.issue x (shV setAll 3) (fun s =>
    let k := s.core x.core
    if fld (k.getA a) 0 3 ≠ 0 then misaligned .write 3 (k.getA a)
    else s.vecStore x (shV setAll 3) (indexed (k.getA a) (k.getV i)) d))

end Sys2Proof.Machine
end

