-- ==== Sys2Proof/Machine/RemoteRun.lean ====
section
/-!
DEFINITION. Remote accesses at the target and the answers at the requester (R247, R248, R294, R318), and the completion of memory requests (R240, R243).
-/
namespace Sys2Proof.Machine

/-! ## At the target -/

/-- The parts of a request as slots. -/
def rxSlots (r : Rx) : List Slot := r.parts.flatMap (fun p => spanSlots (selfPair p.1) p.2 8)

/-- The part that holds a byte offset of a request's slots. -/
def rxPartOf (r : Rx) (a : Pair) : Nat × Nat :=
  ((r.parts.zipIdx.find? (fun p => decide (p.1.1 ≤ localOf a) && decide (localOf a < p.1.1 + p.1.2))).map
    (fun p => (p.2, localOf a - p.1.1))).getD (0, 0)

/-- The target serves its GDDR7, its CXL tier and its semaphore window (DEDUCED, log 39). -/
def State.serves (s : State) (pa : Nat) : Bool :=
  match s.region pa with
  | .gddr => true
  | .cxl => true
  | .ctl o => decide (0x10000 ≤ o) && decide (o < 0x20000)
  | _ => false

/-- How a failed check is answered. -/
def rxFailure (r : Rx) (a : Pair) : WErr → RemRes
  | .acc (.page l n) => .pageFault (rxPartOf r a).1 l n
  | .acc (.mem _ _) => .memErr (rxPartOf r a).1 (rxPartOf r a).2
  | _ => .refused (rxPartOf r a).1

/-- Checks every slot of a request before any is read or written. -/
def State.serveCheck (s : State) (r : Rx) (need : Need) : Except RemRes (List (List Piece)) :=
  match s.wideCheck r.level need (rxSlots r) with
  | .error (e, _, a) => .error (rxFailure r a e)
  | .ok ls =>
    match ls.flatten.find? (fun p => !s.serves p.pa) with
    | some p => .error (.refused (rxPartOf r p.addr).1)
    | none => .ok ls

/-- Performs a READ: the bytes, or why not. -/
def State.serveRead (s : State) (r : Rx) : RemRes × State :=
  match s.serveCheck r .read with
  | .error e => (e, s)
  | .ok ls =>
    match s.wideErr ls with
    | some (_, src, pa, a) => (.memErr (rxPartOf r a).1 (rxPartOf r a).2, s.memFail src pa)
    | none =>
      let (b, t) := s.wideRead none ls
      (.data b.flatten, t)

/-- The bytes of a request with the bits that are stored. -/
def rxBytes (r : Rx) : List MByte :=
  r.body.zipIdx.map (fun b => (b.1, if r.bits.isEmpty then 0xFF#8 else r.bits.getD b.2 0#8))

/-- Gives the pieces of the slots their bytes. -/
def servePieces : List (List Piece) → List MByte → List WPiece
  | [], _ => []
  | ps :: r, l =>
    let n := (ps.map (fun p => p.len)).sum
    giveBytes ps (l.take n) ++ servePieces r (l.drop n)

/-- Performs a WRITE: whole lines are written even where others fail. -/
def State.serveWrite (s : State) (r : Rx) : RemRes × State :=
  match s.serveCheck r .write with
  | .error e => (e, s)
  | .ok ls =>
    let (fails, t) := s.wideWrite none [servePieces ls (rxBytes r)]
    let t1 := fails.foldl (fun u f => u.memFail f.2 f.1.pa) t
    match fails with
    | [] => (.data [], t1)
    | f :: _ => (.memErr (rxPartOf r f.1.addr).1 (rxPartOf r f.1.addr).2, t1)

/-- Performs an ATOMIC on one word slot: the old value. -/
def State.serveAtomic (s : State) (r : Rx) : RemRes × State :=
  let v := wordOfBytes r.body
  let e := wordOfBytes (r.body.drop 8)
  match s.serveCheck r .both with
  | .error f => (f, s)
  | .ok ls =>
    match ls with
    | [[p]] =>
      match s.region p.pa with
      | .ctl o =>
        let i := (o - 0x10000) / 16
        if o % 16 = 0 then
          if i < s.variant.semas then
            let old := s.ctlGet o
            (.data (wordBytes old), s.semPut i (amoNew (r.op + 1) old v e))
          else (.data (wordBytes 0#36), s)
        else (.refused 0, s)
      | _ =>
        match s.wideErr ls with
        | some (_, src, pa, _) => (.memErr 0 0, s.memFail src pa)
        | none =>
          let old := wordOfBytes (s.bytesAt p.pa 8)
          let t := s.atomicTouch p.pa p.hz
          (.data (wordBytes old), if r.op = 2 ∧ old ≠ e then t else t.memPut p.pa (wordBytes (amoNew (r.op + 1) old v e)))
    | _ => (.refused 0, s)

/-- Performs one packet of a flow. -/
def State.perform (s : State) (r : Rx) : RemRes × State :=
  match r.typ with
  | 1 => s.serveRead r
  | 3 => s.serveAtomic r
  | _ => s.serveWrite r

/-- The body of an answer (DESIGN CHOICE, log 25). -/
def remWire : RemRes → List Byte
  | .data b => 0#8 :: b
  | .refused p => 1#8 :: bytesOf p 2
  | .pageFault p l r => 2#8 :: bytesOf p 2 ++ bytesOf l 1 ++ bytesOf r 1
  | .memErr p o => 3#8 :: bytesOf p 2 ++ bytesOf o 2

/-- A packet of a flow that answers one: RESP under the request's PSEQ, by the remote access path (R294); where it is undeliverable the flow breaks (R303). -/
def State.flowAnswer (s : State) (f pseq : Nat) (body : List Byte) : State :=
  let s1 := s.ctlCount (flowOff f 0x30) 0 18
  let k : Packet := { dest := s.flowDev f, src := s.fabId, dflow := s.flowPeer f, sflow := f, pseq := pseq, typ := 2, len := body.length }
  match s1.launch { vc := 1, packet := k, body := body, input := 12 } with
  | (true, t) => t
  | (false, t) => t.flowBreak f 4 true

/-- Performs a packet and answers it; bulk data is not answered. -/
def State.performAnswer (s : State) (f : Nat) (r : Rx) : State :=
  let (a, t) := s.perform r
  if r.typ = 4 then t else t.flowAnswer f r.pseq (remWire a)

/-- PSEQ of a packet that a flow holds. -/
def heldSeq : Held → Nat
  | .rx r => r.pseq
  | .coll p _ => p

/-- PSEQ that a flow expects next. -/
def State.rxExpect (s : State) (f : Nat) : Nat := s.ctlFld (flowOff f 0x10) 16 16

/-- Performs one packet of a flow in its turn: an access, or a packet of the collective engine. -/
def State.performHeld (s : State) (f : Nat) (h : Held) : State :=
  let t := (s.ctlPut (flowOff f 0x10) 16 16 ((heldSeq h + 1) % 65536)).ctlCount (flowOff f 0x30) 18 18
  match h with
  | .rx r => t.performAnswer f r
  | .coll _ r => t.ceRx f r

/-- Performs the packet that has arrived and every held packet that follows it in PSEQ order. -/
def State.performFrom (s : State) (f : Nat) (r : Held) : Nat → State
  | 0 => s
  | n + 1 =>
    let s1 := s.performHeld f r
    match (s1.flowX f).held.find? (fun h => heldSeq h == s1.rxExpect f) with
    | none => s1
    | some h =>
      let s2 := s1.modFlowX f (fun x => { x with held := x.held.erase h })
      ((s2.ctlPut (flowOff f 0x18) 26 10 (min 1023 (s2.flowX f).held.length)).performFrom f h n)

/-- A packet of a flow arrives: performed in PSEQ order, held while an earlier one is missing, dropped when it was performed before. While the reorder pool is full no port returns VC1–VC4 credits (R318). -/
def State.receive (s : State) (f : Nat) (r : Held) : State :=
  if s.flowState f ≠ 4 ∨ s.fabState < 3 ∨ 4 < s.fabState then s
  else
    let ahead := (heldSeq r + 65536 - s.rxExpect f) % 65536
    let x := s.flowX f
    if ahead = 0 then (s.performFrom f r (x.held.length + 1)).linksGo
    else if ahead < 32768 ∧ x.held.all (fun h => heldSeq h != heldSeq r) = true then
      let s1 := s.modFlowX f (fun x => { x with held := x.held ++ [r] })
      s1.ctlPut (flowOff f 0x18) 26 10 (min 1023 (s1.flowX f).held.length)
    else s

/-- REMOTE_REQUEST: a remote access of any type arrives on a flow. -/
def execRemoteRequest (f : Nat) (r : Rx) (s : State) : Out :=
  if r.typ = 0 ∨ r.typ = 1 ∨ r.typ = 3 then .next (s.receive f (.rx r)) else .next s
/-- WRITE. -/
def execWrite (f : Nat) (r : Rx) (s : State) : Out := .next (s.receive f (.rx { r with typ := 0 }))
/-- READ. -/
def execRead (f : Nat) (r : Rx) (s : State) : Out := .next (s.receive f (.rx { r with typ := 1 }))
/-- ATOMIC. -/
def execAtomic (f : Nat) (r : Rx) (s : State) : Out := .next (s.receive f (.rx { r with typ := 3 }))
/-- BULK. -/
def execBulk (f : Nat) (r : Rx) (s : State) : Out := .next (s.receive f (.rx { r with typ := 4 }))

/-- BLOCKS. -/
def execBlocks (k : FlowSeq) (h : CollHdr) (bs : List CBlock) (fail : VCheck) (s : State) : Out := .next (s.receive k.flow (.coll k.pseq (.blocks h bs fail)))
/-- DATA. -/
def execData (k : FlowSeq) (h : CollHdr) (total : Nat) (l : List Byte) (s : State) : Out := .next (s.receive k.flow (.coll k.pseq (.data h total l)))
/-- ACK. -/
def execAck (k : FlowSeq) (h : CollHdr) (s : State) : Out := .next (s.receive k.flow (.coll k.pseq (.ack h)))
/-- RESEND. -/
def execResend (k : FlowSeq) (h : CollHdr) (s : State) : Out := .next (s.receive k.flow (.coll k.pseq (.resend h)))
/-- BACKUP_REQ. -/
def execBackupReq (k : FlowSeq) (h : CollHdr) (s : State) : Out := .next (s.receive k.flow (.coll k.pseq (.backupReq h)))
/-- BACKUP_DATA. -/
def execBackupData (k : FlowSeq) (h : CollHdr) (bs : List CBlock) (s : State) : Out := .next (s.receive k.flow (.coll k.pseq (.backupData h bs)))
/-- EPOCH_MISMATCH. -/
def execEpochMismatch (k : FlowSeq) (h : CollHdr) (s : State) : Out := .next (s.receive k.flow (.coll k.pseq (.epochMismatch h)))

/-! ## At the requester -/

/-- The address of a part of a request. -/
def RemReq.partAddr (r : RemReq) (p off : Nat) : Pair := r.addrs.getD p r.addr + BitVec.ofNat 72 off

/-- Drops every remote access of a core, with the slots of those that were sent. -/
def State.dropRemote (s : State) (c : Nat) : State :=
  let l := s.remote.filter (fun r => r.core == c)
  let s1 : State := { s with remote := s.remote.filter (fun r => r.core != c) }
  l.foldl (fun t r => if r.pseq.isSome then t.flowAnswered r.flow else t) s1

/-- The data of a remote access reaches its destination. -/
def State.remoteDone (s : State) (r : RemReq) (b : List Byte) : State :=
  let s1 : State := { s with remote := s.remote.erase r }
  let k := s.core r.core
  match r.dest with
  | .none => if s1.remoteWait r.core then s1 else s1.retire r.core k r.next
  | .vec d fmt act zero =>
    let l := chunks (laneLen fmt) (lanesOf act).length b
    (s1.modCore r.core (fun k => k.putLanes d fmt act zero l)).retire r.core k r.next
  | .row =>
    match k.pld with
    | some o => s1.pldPut r.core o b
    | none => s1
  | .plrs p =>
    let ws := imageWords (chunks 8 (b.length / 8) b)
    let n := plateWords (headerPlate ws)
    if ws.length < n then
      s1.remoteStart { r with pseq := none, body := reqHead r.level (localOf r.addr) 0 (8 * n) }
    else s1.finish r.core k r.next (s1.plrsEnd r.core p.toNat ws)
  | .arrs =>
    let ws := imageWords (chunks 8 (b.length / 8) b)
    let n := arrWords ws
    if ws.length < n then
      s1.remoteStart { r with pseq := none, body := reqHead r.level (localOf r.addr) 0 (8 * n) }
    else s1.finish r.core k r.next (s1.arrsEnd r.core ws)
  | d => (s1.modCore r.core (d.toReg b)).retire r.core k r.next

/-- RESP: the answer to the request that was sent on a flow under a PSEQ; an answer to none is discarded. -/
def execResp (f pseq : Nat) (res : RemRes) (s : State) : Out :=
  match s.sentReq f pseq with
  | none => .next s
  | some r =>
    let s0 := s.flowAnswered f
    .next (match res with
      | .data b => s0.remoteDone r b
      | .refused p => s0.remoteFailAt r (.bus 4) (r.partAddr p 0)
      | .memErr p o => s0.remoteFailAt r (.mem 5 0) (r.partAddr p o)
      | .pageFault p l n => (({ s0 with remote := s0.remote.erase r } : State).dropRemote r.core).remoteFailAt r (.page l n) (r.partAddr p 0))

/-! ## Memory requests complete (R243, R240) -/

/-- The descriptor class of the access behind an agent's request (R234). -/
def State.agentDesc (s : State) (a : Nat) : Option Nat :=
  if 192 ≤ a ∧ a < 448 then (s.dmaX (a - 192)).desc.bind DmaDesc.hz else none

/-- A fetched line enters its core's L1 instruction cache (R228) (DESIGN CHOICE, log 31). -/
def State.l1iFill (s : State) (c line : Nat) : State := { s with l1i := Tbl.modify [] s.l1i c (fun l => l1Put c line l) }

/-- A deferred report of a core's request whose data failed: the destination keeps its value (R223). -/
def State.requestFailed (s : State) (c : Nat) (a : MemAcc) (src pa : Nat) : State :=
  let rep (need : Need) (dest : Nat) : Report :=
    { cause := 0x0E, info := (XErr.mem src pa).info need (1 + 2 * dest), fa := a.addr, level := a.level }
  if s.ownLs c pa then s
  else match a.kind with
    | .reg d => s.modCore c (fun k => { k with pReports := k.pReports ++ [rep .read d] })
    | .store => s.modCore c (fun k => { k with pReports := k.pReports ++ [rep .write 3] })
    | .wide => s
    | .fetch => s

/-- MEMORY_REQUEST_COMPLETE: the request of an agent through a tensor cache bank leaves its slot; the data fills the tensor cache, or a detection failure is handled by its source (R240). A failure of a core's fetch, vector load or plate load is its instruction's own, and is taken by that instruction (R223). -/
def execMemoryRequestComplete (agent pa : Nat) (write : Bool) (det : Detect) (bank : Nat) (s : State) : Out :=
  match s.memReqs.find? (fun r => r.agent == agent && r.pa == pa && r.write == write && r.bank == bank % 48 && r.admitted) with
  | none => .next s
  | some r =>
    let s1 : State := { s with memReqs := s.memReqs.erase r }
    let die := s1.agentDie agent pa
    let (err, s2) := s1.detect die pa det
    let s3 := match err with
      | none =>
        let t := if det = Detect.tcEvict then s2 else s2.fillLine die pa (s2.agentDesc agent) r.acc.page write
        if r.acc.kind = AccKind.fetch ∧ agent < 192 then t.l1iFill agent (pa / 64) else t
      | some src =>
        if agent < 192 then s2.requestFailed agent r.acc src pa
        else if agent < 448 then
          let q := agent - 192
          if s2.dmaState q = 2 ∧ (s2.dmaX q).record = none then
            ((s2.dmaFault q (.mem src pa) write (selfPair pa) true).ctlPut (dmaOff q 0x70) 7 1 0).dmaEnd q 4 0 0 0#36 false
          else s2
        else s2
    .next (s3.admitNext pa)

end Sys2Proof.Machine
end

