-- ==== Sys2Proof/Machine/TickUnit.lean ====
section
/-!
DEFINITION. The Meridian tick (R31–R46, R53) and frame schedules at their boundaries (R47–R51).
-/
namespace Sys2Proof.Machine

/-! ## The tick unit at a boundary (R34, R37, R42) -/

/-- A staged register write takes effect. -/
def State.tickStaged (s : State) (o : Nat) : Option Word → State
  | none => s
  | some w => s.ctlSet o w

/-- The staged writes of TICK_CTRL, TICK_PERIOD and TICK_NEXT_PERIOD take effect (R34). -/
def State.tickTake (s : State) : State :=
  let g := s.tickStage
  let s1 := ((s.tickStaged 0x00 g.ctrl).tickStaged 0x10 g.period).tickStaged 0x20 g.next
  { s1 with tickStage := {} }

/-- A device that acquired lock enters fabric-locked mode, with the period of its master (R37, R44). -/
def State.tickLock (s : State) : State :=
  if s.lockReady = true ∧ s.ctlFld 0x00 0 2 = 2 then
    let s1 : State := { s.ctlPut 0x08 0 2 2 with lockReady := false }
    if s1.syncPeriod = 0 then s1 else s1.setPeriod s1.syncPeriod
  else s

/-- The device follows a tick master: locked, and not master itself. -/
def State.follows (s : State) : Bool := bitAt (s.ctlGet 0x08) 2 && !bitAt (s.ctlGet 0x08) 4

/-- Holdover at a boundary: it ends when synchronisation is back, otherwise its ticks count; two ticks without TICK_SYNC begin it (R42) (DEDUCED, log 28). -/
def State.tickHold (s : State) : State :=
  if s.follows then
    if bitAt (s.ctlGet 0x08) 3 then
      if s.syncSeen then { (s.ctlPut 0x08 3 1 0).ctlPut 0x08 19 8 0 with syncSeen := false, syncMissed := 0 }
      else s.ctlCount 0x08 19 8
    else if s.syncSeen then { s with syncSeen := false, syncMissed := 0 }
    else if 1 ≤ s.syncMissed then { ((s.ctlPut 0x08 3 1 1).tickEvent 7).tickEvent 2 with syncMissed := s.syncMissed + 1 }
    else { s with syncMissed := s.syncMissed + 1 }
  else { s with syncSeen := false }

/-- TICK_MASTER shows the master whose TICK_SYNC was accepted; a change sets MASTER_CHANGED (R43) (DEDUCED, log 28). -/
def State.tickMaster (s : State) : State :=
  match s.syncMaster with
  | none => s
  | some m =>
    let w := word (m % 2 ^ 14 + 2 ^ 14)
    if s.ctlGet 0x48 = w then s else (s.ctlSet 0x48 w).tickEvent 3

/-- The tick unit's part of a tick: the counter, the staged writes, what a lost lock changes, a lock acquired, holdover (R31, R424 step 1). -/
def State.tickUnit (s : State) : State :=
  let s1 := ({ s with tickCount := s.tickCount + 1#72 } : State).tickTake.seedDropTick.lockGone.tickMaster
  let s2 := if s1.ctlFld 0x08 0 2 = 2 then s1 else s1.setPeriod (s1.ctlFld 0x10 0 26)
  s2.tickLock.tickHold

/-- The announced period change: NEXT_NS and SWITCH_LO, while NEXT_VALID is 1 (R45). -/
def State.announced (s : State) : Option (Nat × Word) := if s.ctlFld 0x20 26 1 = 1 then some (s.ctlFld 0x20 0 26, s.ctlGet 0x28) else none

/-- TICK_SYNC to every child: the tick, the residence time, which time alone determines, the master, the child's depth, the period, the announcement (R39, R45) (DESIGN CHOICE, log 37). -/
def State.sendSync (s : State) : State :=
  let st := s.ctlGet 0x08
  if bitAt st 2 && decide (fld st 0 2 = 2) then
    (s.upPorts.filter (fun p => (s.portX p).child)).foldl (fun t p =>
      let (n, t1) := t.fresh
      let ann := match s.announced with | some a => [1, a.1, a.2.toNat] | none => [0]
      t1.controlOut p 0x15 ([s.tickCount.toNat % 2 ^ 64, (Config.freeWord n).toNat, s.ctlFld 0x48 0 14, s.ctlFld 0x08 14 5 + 1, s.ctlFld 0x18 0 26] ++ ann)) s
  else s

/-! ## The strobe at the cores (R53) -/

/-- A core samples the strobe in a frame of index `i`: MISSED counts while IN_TICK is set; otherwise OVERRUN, SFRAME, and a pending tick. -/
def Core.sampleTick (k : Core) (i : Nat) : Core :=
  let m := k.getMreg 0x11
  if bitAt m 2 then k.setMreg 0x11 (setFld m 5 8 (min (fld m 5 8 + 1) 255))
  else { k.setMreg 0x11 (setFld (if bitAt m 0 then setBitAt m 1 true else m) 13 12 i) with pTick := true }

/-- Every core that is not retired, held in reset or frozen samples the strobe. -/
def State.sampleAll (s : State) : State :=
  (List.range s.variant.cores).foldl (fun t c => if t.deaf c then t else t.modCore c (fun k => k.sampleTick (s.frameIndex.getD 0))) s

/-- TICK: the tick unit, the fabric, the Ephemeris, the DMA channels and the collective engine at the boundary, then the cores. -/
def execTick (s : State) : Out :=
  let s1 := s.tickUnit.fabTick.sendSync.ephTick
  .next ((s1.channels.foldl (fun t q => t.dmaOverrun q) s1).ceSample.sampleAll)

/-! ## Modes (R36, R37, R42) -/

/-- TICK_MODE_CHANGE: the requested mode takes effect; a locked device that leaves fabric-locked mode leaves lock; a request for it holds the device free-running until lock (R37). -/
def execTickModeChange (s : State) : Out :=
  let req := s.ctlFld 0x00 0 2
  let mode := s.ctlFld 0x08 0 2
  let want := if req = 0 then 0 else if req = 2 ∧ mode = 2 then 2 else 1
  if want = mode ∧ ¬ (req ≠ 2 ∧ s.ctlFld 0x08 2 1 = 1) then .next s
  else
    let s1 := if req ≠ 2 ∧ s.ctlFld 0x08 2 1 = 1 then s.loseLock.lockGone else s
    let s2 : State := { (s1.ctlPut 0x08 0 2 want).ctlPut 0x08 4 1 (if want = 0 then 1 else 0) with syncGood := 0, syncStepped := false, lockReady := false }
    .next ((s2.ctlPut 0x08 5 1 0).setPeriod (s2.ctlFld 0x10 0 26))

/-- HOLDOVER_EXPIRY: at tick HOLDOVER_LIMIT of a holdover the device leaves lock (R42). -/
def execHoldoverExpiry (s : State) : Out :=
  if bitAt (s.ctlGet 0x08) 3 = true ∧ s.ctlFld 0x00 2 8 ≤ s.ctlFld 0x08 19 8 then .next s.loseLock.lockGone else .next s

/-! ## TICK_SYNC (R39–R45) -/

/-- SKEW_EST_NS, TREE_DEPTH and the master that a TICK_SYNC gives; TICK_MASTER follows at the next boundary (R43) (DEDUCED, log 28). -/
def State.syncStatus (s : State) (skew master depth : Nat) : State :=
  { (s.ctlPut 0x08 6 8 (min skew 255)).ctlPut 0x08 14 5 (min depth 31) with syncMaster := some (master % 2 ^ 14) }

/-- The announcement of a period change that a TICK_SYNC carries (R45). -/
def State.syncAnnounce (s : State) : Option (Nat × Word) → State
  | none => s
  | some (ns, at_) => { (s.ctlSet 0x20 (word (ns % 2 ^ 26 + 2 ^ 26))).ctlSet 0x28 at_ with switchKnown := true }

/-- A schedule is active on the device. -/
def State.schedActive (s : State) : Bool := s.schedNow.isSome

/-- The device's one step to its parent's tick: counter and phase (R40). -/
def State.syncStep (s : State) (n : Nat) : State :=
  if s.syncStepped then s else ({ s with tickCount := BitVec.ofNat 72 n, syncStepped := true, syncGood := 0 } : State).tickEvent 6

/-- A TICK_SYNC at a free-running device on its way to lock: an active schedule keeps it from its step and from lock, and then LOCK_PENDING is set (R31, R39–R41). -/
def State.syncFree (s : State) (n skew master depth period : Nat) (ann : Option (Nat × Word)) : State :=
  let s1 := ((if s.schedActive then s else s.syncStep n).syncStatus skew master depth).syncAnnounce ann
  let good := decide (skew ≤ s1.ctlFld 0x00 10 8) && decide (n = s1.now)
  let s2 : State := { s1 with syncGood := if good then s1.syncGood + 1 else 0, syncPeriod := period }
  if s2.schedActive then (if s2.syncStepped = false ∨ 8 ≤ s2.syncGood then s2.ctlPut 0x08 5 1 1 else s2)
  else if 8 ≤ s2.syncGood then
    ({ (s2.ctlPut 0x08 2 1 1).ctlPut 0x08 5 1 0 with lockReady := true, syncMissed := 0, syncSeen := true } : State).tickEvent 0
  else s2

/-- A TICK_SYNC at a locked device: another tick number ends the lock; a high skew or depth counts as missing (R42, R43). -/
def State.syncLocked (s : State) (n skew master depth period : Nat) (ann : Option (Nat × Word)) : State :=
  if n ≠ s.now then s.loseLock
  else
    let s1 : State := { (s.syncStatus skew master depth).syncAnnounce ann with syncPeriod := period }
    if s1.ctlFld 0x00 10 8 < skew ∨ 28 < depth then s1.tickEvent 5
    else { s1 with syncSeen := true }

/-- TICK_SYNC: tick number, skew estimate, master, depth, period and an announced change. -/
def execTickSync (n skew master depth period : Nat) (ann : Option (Nat × Word)) (s : State) : Out :=
  let st := s.ctlGet 0x08
  if bitAt st 4 then .next s
  else if bitAt st 2 then .next (s.syncLocked n skew master depth period ann)
  else if s.ctlFld 0x00 0 2 = 2 ∧ fld st 0 2 = 1 then .next (s.syncFree n skew master depth period ann)
  else .next s

/-- PERIOD_SWITCH: at tick SWITCH_LO the announced period becomes active; a locked device without the announcement leaves lock (R45). -/
def execPeriodSwitch (at_ : Word) (s : State) : Out :=
  if s.ctlFld 0x08 0 2 ≠ 2 ∨ word s.now ≠ at_ then .next s
  else if s.ctlFld 0x20 26 1 = 1 ∧ s.ctlGet 0x28 = at_ then
    .next ({ s.setPeriod (s.ctlFld 0x20 0 26) with switchKnown := false } |>.ctlPut 0x20 26 1 0)
  else if s.follows then .next s.loseLock.lockGone
  else .next s

/-! ## Schedules (R47) -/

/-- Every running slot ends, and other traffic has the ports. -/
def State.slotsEnd (s : State) : State := ({ s with sched := { s.sched with slotFlow := [], slotYield := [], slotKind := [] } } : State).linksGo

/-- SCHEDULE_START_AT_TICK: the latest schedule whose start tick has come starts or replaces the active one; deferred queues follow it (R47, R363). -/
def execScheduleStartAtTick (s : State) : Out :=
  let a := lastDue s.now (s.sched.pendStart.map Prod.snd)
  match s.sched.pendStart.find? (fun p => p.2 + 1 == a) with
  | none => .next s
  | some p =>
    let dq := s.sched.dqNext.foldl (fun d e => Tbl.set 0 d e.1 (e.2 - 1)) s.sched.dq
    let s1 : State := { s with
      sched := { s.sched with active := some p, pendStart := s.sched.pendStart.filter (fun q => decide (s.now < q.2)), dq := dq, dqNext := [] }
      monitor := s.monitor.foldl (fun d e => Tbl.set {} d e.1 { e.2 with reported := false }) [] }
    .next s1.slotsEnd

/-- SCHEDULE_STOP_AT_TICK: the active schedule stops; a device whose lock waits for it goes on to acquire lock (R41, R47). -/
def execScheduleStopAtTick (s : State) : Out :=
  let z := lastDue s.now s.sched.pendStop
  if z = 0 then .next s
  else
    let s1 : State := { s with sched := { s.sched with
      active := if s.sched.active.any (fun p => decide (z ≤ p.2 + 1)) then s.sched.active else none
      pendStop := s.sched.pendStop.filter (fun t => decide (s.now < t))
      pendStart := s.sched.pendStart.filter (fun q => decide (z ≤ q.2 + 1)) } }
    .next (s1.slotsEnd.ctlPut 0x08 5 1 0)

/-! ## Transmit slots (R50, R51, R304) -/

/-- The slot table entry of a port for a frame index and start unit. -/
def State.slotEntry (s : State) (p i unit : Nat) : Option (BitVec 64) :=
  match s.schedNow with
  | none => none
  | some (n, _) => (Tbl.get [] (s.schedOf n).slots p).find? (fun e => fld e 0 12 == i && fld e 12 10 == unit)

/-- SLOT_START: in fabric-locked mode the slot gives the port to its flow, which sends what waits; with YIELD and nothing to send it is lent. -/
def execSlotStart (p unit : Nat) (s : State) : Out :=
  match s.frameIndex with
  | none => .next s
  | some i =>
    match s.slotEntry p i unit with
    | none => .next s
    | some e =>
      if s.ctlFld 0x08 0 2 ≠ 2 ∨ s.variant.ports ≤ p then .next s
      else
        let f := fld e 32 14
        let s1 : State := { s with sched := { s.sched with
          slotFlow := Tbl.set 0 s.sched.slotFlow p (f + 1)
          slotYield := Tbl.set false s.sched.slotYield p (bitAt e 48)
          slotKind := Tbl.set 0 s.sched.slotKind p (fld e 46 2) } }
        .next (s1.linksGo.ceKickAll.pump f)

/-- SLOT_END: the port finishes the packet it is sending and stops the flow, which waits for its next slot; other traffic goes (R51). -/
def execSlotEnd (p : Nat) (s : State) : Out :=
  .next ({ s with sched := { s.sched with
    slotFlow := Tbl.set 0 s.sched.slotFlow p 0
    slotYield := Tbl.set false s.sched.slotYield p false
    slotKind := Tbl.set 0 s.sched.slotKind p 0 } } : State).linksGo

end Sys2Proof.Machine
end

