-- ==== Sys2Proof/Machine/Tasks.lean ====
section
/-!
DEFINITION. What the core monitor does with a core's tasks (R53, R54, R363–R366, R453–R457), exception entry at a boundary, deferred reports, core reset and retirement (R386, R442), and the rollback boundary (R385).
-/
namespace Sys2Proof.Machine

/-! ## Core reset and retirement (R386, R441, R442) -/

/-- What a core reset does in the memory system: data of outstanding requests is discarded when it comes, the core's L1 lines are invalidated, its mailboxes take their reset values (R252, R441, R442). -/
def State.memCoreReset (s : State) (c : Nat) : State :=
  { s with
    memReqs := s.memReqs.map (fun r => if r.agent = c then { r with acc := { r.acc with kind := .wide } } else r)
    l1d := Tbl.set [] s.l1d c [], l1i := Tbl.set [] s.l1i c []
    ctl := s.ctl.filter (fun e => !(decide (cmbxOff c 0 0 ≤ e.1) && decide (e.1 < cmbxOff (c + 1) 0 0))) }

/-- A core reset: nothing issues, outstanding accesses are discarded, locks end, pending ticks and signals are dropped, and the core waits at M. -/
def State.coreReset (s : State) (c : Nat) : State :=
  let s1 := ((s.dropRemote c).arbCoreReset c).memCoreReset c
  ((s1.setCore c Core.reset).modMon c (fun _ => { fresh := true }))

/-- The core monitor starts on a core that waits at M: the M stacks and vector table of R454. -/
def State.monitorBoot (s : State) (c : Nat) : State :=
  let w := coreWindow c
  s.modCore c (fun k =>
    let k1 := (((k.setMreg 0x27 (word ((w + 0xBB000) / 256))).setMreg 0x28 (word ((w + 0xBC000) / 256))).setMreg 0x21
      (word ((w + 0xBC000) / 256))).setMreg 0x22 (word ((w + 0xBE000) / 256))
    let k2 := k1.setMreg 0x14 (word ((w + 0xBE000) / 4096))
    { k2 with run := .idle, csp := k2.csp.set 0 (selfPair (w + 0xBC000)), dsp := k2.dsp.set 0 (selfPair (w + 0xBE000)) })

/-- Alidade retires a core and holds it in core reset: 1 two third faults, 2 self-test, 3 command (R386, R410). -/
def State.retireCore (s : State) (c reason : Nat) : State :=
  if s.hasCore c = false ∨ s.isRetired c = true then s
  else
    let s1 := s.coreReset c
    let s2 : State := { s1 with retired := Tbl.set false s1.retired c true }
    ((((s2.ctlPut (0x60800 + 8 * c) 7 1 1).ephEvent 64).ephFault 2 c none).hostEvent 4).logAdd 0x0005 c reason

/-- A third-fault reset within 65,536 ticks of the previous one retires the core (DEDUCED, log 29). -/
def State.thirdFaultAgain (s : State) (c : Nat) : Bool :=
  match Tbl.get 0 s.thirdFault c with
  | 0 => false
  | t + 1 => decide (s.now - t ≤ 65536)

/-- CORE_RETIREMENT: a core that took a second third fault, that failed its self-test after a reset, or that a command names. -/
def execCoreRetirement (c reason : Nat) (s : State) : Out :=
  let run := (s.core c).run
  let ok : Bool := match reason with
    | 1 => run == .frozen && s.thirdFaultAgain c
    | 2 => run == .atReset
    | 3 => true
    | _ => false
  .next (if ok then s.retireCore c reason else s)

/-- Alidade has booted: RANAS_STATE.STATE is READY (R401). -/
def State.booted (s : State) : Bool := fld (s.barGet 0x04) 0 4 == 2

/-- CORE_RESET_SEQUENCE: a core that stopped at a third fault or at stack exhaustion takes its core reset; a core that waits at M after one is started by the core monitor. -/
def execCoreResetSequence (c : Nat) (s : State) : Out :=
  if s.hasCore c = false ∨ s.isRetired c = true then .next s
  else
    match (s.core c).run with
    | .frozen =>
      let again := s.thirdFaultAgain c
      let s1 : State := { s.coreReset c with thirdFault := Tbl.set 0 s.thirdFault c (s.now + 1) }
      .next (if again then s1.retireCore c 1 else s1)
    | .exhausted => .next (s.coreReset c)
    | .atReset => .next (if s.booted then s.monitorBoot c else s)
    | _ => .next s

/-! ## Starting tasks (R48, R453, R54) -/

/-- A cause that pends in MRAISE is taken at K at the return from M (R218). -/
def State.raisePend (s : State) (c : Nat) : State :=
  let k := s.core c
  let m := k.getMreg 0x1F
  if bitAt m 8 = true ∧ k.pl ≠ 0 then
    (s.setCore c (k.setMreg 0x1F (setBitAt m 8 false))).enter c
      { cause := fld m 0 8, info := k.getMreg 0x20, fa := mkPair (k.getMreg 0x31) (k.getMreg 0x30), pc := k.pc, target := 1, sync := false, raised := true }
  else s

/-- The tick handler's own frame is the innermost of M (R53). -/
def Core.tickTop (k : Core) : Bool := k.pl == 0 && k.inTick && k.depth 0 == k.tickDepth + 1 && !k.dfActive

/-- The core leaves the tick handler to a PC with a PSW: its frame is taken off and IN_TICK clears; outside the handler only the PC and PSW change. -/
def Core.leaveTick (k : Core) (psw : Word) (pc : Pair) : Core :=
  if k.tickTop then k.eretDone (k.dsp.get 0) psw pc else { k.landAll with psw := psw, pc := pc }

/-- The core as the monitor's ERET starts a task: PL by LEVEL, FNEST as the monitor's own, every other PSW field at its reset value, w1 the argument (R453). -/
def Core.startTask (k : Core) (e : Pair × Word × Word) (kind : TaskKind) : Core :=
  let psw := word ((if bitAt e.2.2 1 then 2 else 1) + flag k.fnest 3)
  let k1 := (k.leaveTick psw e.1).setW 1#5 e.2.1
  let m := setBitAt (setBitAt (k1.getMreg 0x11) 0 true) 4 false
  let m := if kind = .frame ∨ kind = .runtime then setBitAt m 3 (bitAt e.2.2 2) else m
  { k1.setMreg 0x11 m with run := .running, ended := false, taskLevel := if bitAt e.2.2 1 then 2 else 1 }

/-- Starts a task on a core. -/
def State.startTask (s : State) (c : Nat) (e : Pair × Word × Word) (kind : TaskKind) (frame : Nat) : State :=
  let s1 := s.modCore c (fun k => k.startTask e kind)
  (s1.modMon c (fun m => { m with task := kind, frame := frame, waits := none, opp := false })).raisePend c

/-- The monitor returns from the tick handler to what the tick interrupted. -/
def State.tickReturn (s : State) (c : Nat) : State :=
  let t := match s.eret c with
    | .jump t pc => t.modCore c (fun k => { k with pc := pc })
    | .stay t => t
    | _ => s
  if (t.core c).pl = 0 ∧ (t.core c).inTick = false ∧ (t.mon c).task = .idle then t.modCore c (fun k => { k with run := .idle }) else t

/-- The core waits at M with its tick handler ended and no task. -/
def State.idleAtM (s : State) (c : Nat) : State :=
  (s.modCore c (fun k => (k.leaveTick (word (flag k.fnest 3)) k.pc).idleM)).modMon c (fun m => { m with task := .idle, waits := none, opp := true })

/-- PC that the overrunning task had reached: in the tick handler, that of the handler's frame. -/
def State.tickPc (s : State) (c : Nat) : Pair :=
  let k := s.core c
  let a := localOf (k.dsp.get 0)
  if k.tickTop then mkPair (s.wordAt (a + 16)) (s.wordAt (a + 8)) else k.pc

/-- The monitor raises cause 0x0C for an overrun: it pends in MRAISE until the next ERET to K or T (R54, R222). -/
def State.raiseOverrun (s : State) (c : Nat) (abandoned : Bool) : State :=
  let fa := s.tickPc c
  let m := s.mon c
  s.modCore c (fun k =>
    let info := word (m.frame % 4096 + fld (k.getMreg 0x11) 3 1 * 2 ^ 12 + flag abandoned 13)
    (((k.setMreg 0x1F (word (0x0C + 256))).setMreg 0x20 info).setMreg 0x30 (lo36 fa)).setMreg 0x31 (hi36 fa))

/-- The open task's context is discarded. -/
def State.dropTask (s : State) (c : Nat) : State := s.modCore c (fun k => k.setMreg 0x11 (setBitAt (setBitAt (k.getMreg 0x11) 0 false) 4 false))

/-- The task that this frame names starts in the tick handler, or the core idles: an opportunity for the deferred queue (DEDUCED, log 27). -/
def State.frameGo (s : State) (c : Nat) : State :=
  match s.frameTask c with
  | some e => s.startTask c e .frame (s.frameIndex.getD 0)
  | none => s.idleAtM c

/-- The open task runs on with CARRIED set; the frame's task waits for its FDONE. -/
def State.carryTask (s : State) (c : Nat) : State :=
  let w := if (s.frameTask c).isSome then s.frameIndex else none
  (s.modCore c (fun k => k.setMreg 0x11 (setBitAt (k.getMreg 0x11) 4 true))).modMon c (fun m => { m with waits := w })

/-- The tick handler's work on a task that is still OPEN (R54, R366, R456) (DEDUCED, log 27). -/
def State.overrun (s : State) (c : Nat) : State :=
  let k := s.core c
  let m := s.mon c
  match m.task with
  | .runtime => (s.carryTask c).tickReturn c
  | .deferred i =>
    if (s.frameTask c).isNone then
      (s.modCore c (fun k => k.setMreg 0x11 (setBitAt (k.getMreg 0x11) 1 false))).tickReturn c
    else ((s.dqAbandon c i).dropTask c).frameGo c
  | _ =>
    if bitAt (k.getMreg 0x11) 3 = true ∧ bitAt (k.getMreg 0x11) 4 = false then ((s.raiseOverrun c false).carryTask c).tickReturn c
    else ((s.raiseOverrun c true).dropTask c).frameGo c

/-- FRAME_TASK_START: in the tick handler the monitor deals with a task that is still OPEN and starts the task of the frame; after the FDONE of a task that ran on it starts the task that waited. -/
def execFrameTaskStart (c : Nat) (s : State) : Out :=
  let k := s.core c
  if s.live c = false ∨ s.remoteWait c = true then .next s
  else if k.tickTop then
    if k.open then .next (s.overrun c)
    else
      match s.frameTask c with
      | some e => .next (s.startTask c e .frame (s.frameIndex.getD 0))
      | none => .next ((s.modMon c (fun m => { m with opp := true })).tickReturn c)
  else
    match (s.mon c).waits with
    | some i =>
      match s.taskEntry c i with
      | some e => if k.isEnded then .next (s.startTask c e .frame i) else .next s
      | none => .next (if k.isEnded then s.modMon c (fun m => { m with waits := none, opp := true }) else s)
    | none => .next s

/-! ## The deferred queue (R365) -/

/-- The core has nothing to run: its task has ended, or it idles at M. -/
def Core.free (k : Core) : Bool := k.isEnded || (k.pl == 0 && k.run == .idle)

/-- Clocks that remain in the frame, less the margin of 512, at `ns` after the tick. -/
def State.clocksLeft (s : State) (ns : Nat) : Int :=
  let f := match s.clockStep with | 0 => 940 | 1 => 705 | _ => 470
  ((s.ctlFld 0x18 0 26 - ns) * f / 1000 : Nat) - 512

/-- One opportunity: entries from HEAD on are skipped, started, or leave the core idle; `n` bounds the entries passed over (DEDUCED, log 30). -/
def State.dqServe (s : State) (c ns : Nat) : Nat → State
  | 0 => s
  | n + 1 =>
    let b := s.dqBase c
    match s.dqFirstBad false [b, b + 8] with
    | some (r, pa) => (s.dqNote r pa).dqReport c r pa
    | none =>
      let ctl := s.wordAt b
      let lg := fld ctl 0 4
      if lg < 4 ∨ 12 < lg ∨ fld ctl 5 31 ≠ 0 then s.dqReport c 1 0
      else if bitAt ctl 4 = false then s
      else
        let head := fld (s.wordAt (b + 8)) 0 12 % 2 ^ lg
        let e := dqEntry b head
        match s.dqFirstBad false [e + 0x18] with
        | some (r, pa) => (s.dqNote r pa).dqReport c r pa
        | none =>
          let fl := s.wordAt (e + 0x18)
          if bitAt fl 0 = false then s
          else if fld fl 27 9 ≠ 0 ∨ fld fl 3 24 = 0 then
            match s.dqFirstBad true [e + 0x18, b + 8, b + 0x20] with
            | some (r, pa) => (s.dqNote r pa).dqReport c r pa
            | none =>
              let s1 := (s.dqPut c (e + 0x18) (setBitAt fl 0 false)).dqPut c (b + 8) (word ((head + 1) % 2 ^ lg))
              (s1.dqPut c (b + 0x20) (s1.wordAt (b + 0x20) + 1#36)).dqServe c ns n
          else if s.clocksLeft ns < (fld fl 3 24 : Int) then s
          else
            match (s.dqFirstBad false [e, e + 8, e + 0x10]).or (s.dqFirstBad true [b + 0x10]) with
            | some (r, pa) => (s.dqNote r pa).dqReport c r pa
            | none =>
              let entry := (mkPair (s.wordAt (e + 8)) (s.wordAt e), s.wordAt (e + 0x10), fl)
              (s.dqPut c (b + 0x10) (s.wordAt (b + 0x10) + 1#36)).startTask c entry (.deferred head) 0

/-- DEFERRED_SERVE: at an opportunity, `ns` nanoseconds after the tick, the monitor serves the core's deferred queue. -/
def execDeferredServe (c ns : Nat) (s : State) : Out :=
  let m := s.mon c
  if s.live c = false ∨ s.remoteWait c = true ∨ m.opp = false ∨ (s.core c).free = false then .next s
  else
    let s1 := s.modMon c (fun m => { m with opp := false })
    if s.dqBase c = 0 ∨ m.fresh = true ∨ s.schedNow.isNone then .next s1
    else .next (s1.dqServe c ns 4097)

/-! ## Exception entry (R214, R217, R457) -/

/-- The monitor leaves a cause for K in MRAISE. -/
def State.raiseAtK (s : State) (c : Nat) (d : DueCause) : State :=
  s.modCore c (fun k =>
    (((k.setMreg 0x1F (word (d.cause + 256))).setMreg 0x20 d.info).setMreg 0x30 (lo36 d.fa)).setMreg 0x31 (hi36 d.fa))

/-- The monitor has treated a cause. -/
def State.treated (s : State) (c : Nat) (d : DueCause) : State := s.modMon c (fun m => { m with due := m.due.erase d })

/-- What the monitor does with the causes that reached M and that R457 names: a breakpoint that arose at K or T goes on to K, by the return of its own handler or, where a task has started since, at the next return from M; any other is a machine check and a core reset. -/
def State.treatM (s : State) (c : Nat) : State :=
  let due := (s.mon c).due
  let k := s.core c
  match due.find? (fun d => d.cause != 0x10 || d.level == 0) with
  | some d => ((s.treated c d).machineCheck c 4 (d.cause + d.level * 2 ^ 8)).coreReset c
  | none =>
    match due.getLast? with
    | none => s
    | some d =>
      if k.pl ≠ 0 then (s.treated c d).raiseAtK c d
      else if k.depth 0 = d.depth ∧ k.tickTop = false then
        let s2 := (s.treated c d).raiseAtK c d
        match s2.eret c with
        | .jump t pc => t.modCore c (fun k => { k with pc := pc })
        | .stay t => t
        | _ => s2
      else s

/-- EXCEPTION_ENTRY: the core takes its highest-ranked pending exception; with none, the monitor treats a cause that reached M. -/
def execExceptionEntry (c : Nat) (s : State) : Out :=
  if s.live c = false ∨ s.remoteWait c = true then .next s
  else
    match s.takePending c with
    | some t => .next t
    | none => .next (s.treatM c)

/-- DEFERRED_ERROR_REPORT: an access of a core completes with a detected error (`mem`, SRC `n`) or a bus error (REASON `n`); ACCESS, DKIND and DREG name it, `acc` gives its level and address, and its report waits in program order while the core is at a level more privileged than the access (R223). -/
def execDeferredErrorReport (c : Nat) (mem : Bool) (access n dkind dreg : Nat) (acc : Nat × Pair) (s : State) : Out :=
  if s.live c = false then .next s
  else
    let info := word (access % 4 + n % 8 * 4 + 32 + dkind % 4 * 64 + dreg % 32 * 256)
    let s1 := if mem then
        (match s.place acc.1 (if access = 0 then .read else .write) acc.2 1 with
        | .ok (pa, _) => s.memFail (n % 8) pa
        | .error _ => s)
      else s
    .next (s1.modCore c (fun k => { k with pReports := k.pReports ++ [{ cause := if mem then 0x0E else 0x03, info := info, fa := acc.2, level := acc.1 }] }))

/-! ## Rollback (R385) -/

/-- The running task of a core is abandoned under policy 0: its level is left by the entry of a tick at M, where the core idles (R63, R385) (DEDUCED, log 27). -/
def State.abandonTask (s : State) (c : Nat) : State :=
  let k := s.core c
  let t := if k.pl = 0 then s
    else s.enter c { cause := 0x11, info := word s.now, fa := 0#72, pc := k.pc, target := 0, sync := false }
  match (t.core c).run with
  | .exhausted => t
  | .frozen => t
  | _ => (((t.raiseOverrun c true).dropTask c).idleAtM c).modMon c (fun m => { m with opp := false })

/-- Step 1 of a rollback: schedules and deferred queues stop, and running tasks are abandoned under policy 0. -/
def State.tasksStop (s : State) : State :=
  let s1 : State := { s with sched := { s.sched with active := none, pendStart := [], pendStop := [] } }
  (List.range s.variant.cores).foldl (fun t c =>
    let m := t.mon c
    let up := match (t.core c).run with | .running => true | .waiting => true | .idle => true | _ => false
    if up = true ∧ (t.core c).open = true ∧ m.task ≠ .runtime ∧ m.task ≠ .idle then
      t.abandonTask c
    else t.modMon c (fun m => { m with waits := none, opp := false })) s1.slotsEnd

/-- Step 2: STOP to every DMA channel (DEDUCED, log 40). -/
def State.dmaStopAll (s : State) : State := s.channels.foldl (fun t q => t.dmaWrite q 0x08 2#36) s

/-- Step 3: STOP to the collective queues, RESET of the group flows: the buckets in progress complete with MEMBER_LOST, and carries of the step and later are discarded. -/
def State.ceStopAll (s : State) (step : Nat) : State :=
  let s1 := s.ceRollback step
  let fs := s1.activeFlows.filter (fun f => s1.flowKind f == 1)
  let s2 := fs.foldl (fun t f => t.flowCmd f 4) s1
  s2.ce.buckets.foldl State.ceMemberLost s2

/-- ROLLBACK_AT_TICK: at the boundary of RB the step is rolled back; one tick later, channels of the SN-9440-M that are not STOPPED receive ABORT. -/
def execRollbackAtTick (s : State) : Out :=
  match s.eph.rollback with
  | some (step, rb) =>
    if s.now < rb then .next s
    else
      let s1 := s.modEph (fun x => { x with rollback := none, abortAt := some (s.now + 1) })
      let s2 := (s1.tasksStop.dmaStopAll).ceStopAll step
      let s3 := (s2.ephAppend 0x08 [word rb, word step]).closeRecord 1
      .next ((s3.ephEvent 128).hostEvent 3)
  | none =>
    match s.eph.abortAt with
    | none => .next s
    | some t =>
      if s.now < t then .next s
      else
        let s1 := s.modEph (fun x => { x with abortAt := none })
        .next (if s.variant = .m9440 then s1.channels.foldl (fun u q => if u.dmaState q = 0 then u else u.dmaWrite q 0x08 4#36) s1 else s1)

end Sys2Proof.Machine
end

