-- ==== Sys2Proof/Machine/Mailbox.lean ====
section
/-!
DEFINITION. BAR0 and the mailboxes of Ranas (R401–R406, R411): host register accesses, posting a command, reading a result, how Alidade begins and completes a command.
-/
namespace Sys2Proof.Machine

/-! ## MSI-X (R411) -/

/-- A message that pends for a vector is sent once the vector can be sent. -/
def State.msixFlush (s : State) (v : Nat) : State :=
  let o := 0x28000 + 4 * (v / 32)
  if bitAt (s.barGet o) (v % 32) = true ∧ s.msixOpen v = true then
    (s.barSet o (setBitAt (s.barGet o) (v % 32) false)).emit (.msix v)
  else s

/-- A write of an MSI-X table entry; clearing the mask bit sends a message that pends. -/
def State.msixWrite (s : State) (o : Nat) (v : Reg32) : State :=
  if o % 16 = 12 then (s.barSet o (v &&& 1#32)).msixFlush ((o - 0x20000) / 16) else s.barSet o v

/-- A write of the function's MSI-X message control: enable and function mask (PRESUMED, log 46). -/
def State.msixControl (s : State) (v : Reg32) : State :=
  let s1 : State := { s with msixCtl := v.setWidth 16 &&& 0xC000#16 }
  if bitAt s1.msixCtl 15 && !bitAt s1.msixCtl 14 then
    ((List.range 2048).filter (fun i => bitAt (s1.barGet (0x28000 + 4 * (i / 32))) (i % 32))).foldl State.msixFlush s1
  else s1

/-! ## Mailbox registers (R401–R403) -/

/-- BAR0 offset of a mailbox register. -/
def mbxOff (n r : Nat) : Nat := 0x10000 + n * 0x100 + r
/-- MBX_STATUS.STATE: 0 IDLE, 1 BUSY, 2 DONE. -/
def State.mbxState (s : State) (n : Nat) : Nat := fld (s.barGet (mbxOff n 4)) 0 2
/-- RANAS_STATE.STATE: 0 BOOTING, 1 RECOVERY, 2 READY, 3 FATAL. -/
def State.ranasState (s : State) : Nat := fld (s.barGet 0x04) 0 4
/-- Changes what Alidade holds. -/
def State.modRanas (s : State) (f : Ranas → Ranas) : State := { s with ranas := f s.ranas }

/-- Little-endian number in a list of bytes. -/
def leAt (l : List Byte) (off n : Nat) : Nat := natOfBytes ((l.drop off).take n)

/-- The 124 parameter bytes of a mailbox. -/
def State.mbxParams (s : State) (n : Nat) : List Byte :=
  (List.range 31).flatMap (fun i => bytesOf (s.barGet (mbxOff n (0x44 + 4 * i))).toNat 4)

/-- Writes bytes as 32-bit registers from an offset on. -/
def State.barBytes (s : State) (o : Nat) (l : List Byte) : State :=
  (List.range ((l.length + 3) / 4)).foldl (fun t i => t.barSet (o + 4 * i) (BitVec.ofNat 32 (leAt l (4 * i) 4))) s

/-- A POST: the command, its parameters and SEQ are copied, the previous result is discarded, the mailbox is BUSY; while it is BUSY the post is lost (R402). -/
def State.mbxPost (s : State) (n : Nat) : State :=
  let st := s.barGet (mbxOff n 4)
  if fld st 0 2 = 1 then s.barSet (mbxOff n 4) (setBitAt st 3 true)
  else
    let cmd := s.barGet (mbxOff n 0x40)
    let seq := fld (s.barGet (mbxOff n 8)) 0 16
    let p : Post := { mbox := n, op := fld cmd 0 16, plen := fld cmd 16 16, seq := seq, par := s.mbxParams n, tick := s.now }
    let s1 := s.barSet (mbxOff n 4) (setFld (setBitAt st 2 false) 0 2 1)
    let s2 := ((s1.barSet (mbxOff n 0xC0) (BitVec.ofNat 32 (seq + 2 ^ 16))).barSet (mbxOff n 0xC4) 0#32).barBytes (mbxOff n 0xC8) (List.replicate 56 0#8)
    s2.modRanas (fun r => { r with posts := r.posts ++ [p] })

/-- A host write of a mailbox register: command, parameters, SEQ and IRQ are ignored while BUSY (R402). -/
def State.mbxWrite (s : State) (n r : Nat) (v : Reg32) : State :=
  if r = 0x00 then (if bitAt v 0 then s.mbxPost n else s)
  else if r = 0x04 then (if bitAt v 3 then s.barSet (mbxOff n 4) (setBitAt (s.barGet (mbxOff n 4)) 3 false) else s)
  else if s.mbxState n = 1 then s
  else if r = 0x08 then s.barSet (mbxOff n 8) (v &&& 0xFFFF#32)
  else if r = 0x0C then s.barSet (mbxOff n 0x0C) (v &&& 0xFFF#32)
  else if 0x40 ≤ r ∧ r < 0xC0 then s.barSet (mbxOff n r) v
  else s

/-- A read of MBX_RES: the value, and RESULT_READ set by the first read of a completed result (R403). -/
def State.mbxResRead (s : State) (n : Nat) : Reg32 × State :=
  let st := s.barGet (mbxOff n 4)
  let v := s.barGet (mbxOff n 0xC0)
  if fld st 0 2 = 2 then (setBitAt v 24 (bitAt st 2), s.barSet (mbxOff n 4) (setBitAt st 2 true)) else (v, s)

/-! ## BAR0 accesses (R401) -/

/-- Offset under which the model takes a write of the MSI-X message control of the function's config space. -/
def msixCtlOff : Nat := 0x100000000

/-- A 4-byte host write at a BAR0 offset. -/
def State.barWrite (s : State) (o : Nat) (v : Reg32) : State :=
  if o = msixCtlOff then s.msixControl v
  else if o % 4 ≠ 0 then s
  else if o = 0x08 then s.barSet 0x08 (s.barGet 0x08 &&& ~~~ v)
  else if o = 0x0C then s.barSet 0x0C (v &&& 0xFFF#32)
  else if 0x10000 ≤ o ∧ o < 0x14000 then s.mbxWrite ((o - 0x10000) / 0x100) (o % 0x100) v
  else if 0x20000 ≤ o ∧ o < 0x28000 then s.msixWrite o v
  else s

/-- A 4-byte host read at a BAR0 offset: HOST_LINK.RETRAINS clears, MBX_RES keeps its own rule. -/
def State.barRead (s : State) (o : Nat) : Reg32 × State :=
  if o % 4 ≠ 0 then (0#32, s)
  else if 0x10000 ≤ o ∧ o < 0x14000 ∧ o % 0x100 = 0xC0 then s.mbxResRead ((o - 0x10000) / 0x100)
  else if o = 0x10 then (s.barGet 0x10, s.barSet 0x10 (setFld (s.barGet 0x10) 4 8 0))
  else (s.barGet o, s)

/-- REGISTER_WRITE: a register that has no row of its own; the host writes BAR0, others the control windows. -/
def execRegisterWrite (by_ : Agent) (o : Nat) (v : Word) (s : State) : Out :=
  match by_ with
  | .host => .next (s.barWrite o (v.setWidth 32))
  | _ => .next (s.agentWrite by_ o v)

/-- READ_CLEAR: a register read, with what the read clears. -/
def execReadClear (by_ : Agent) (o : Nat) (s : State) : Out :=
  match by_ with
  | .host => let (v, t) := s.barRead o; .next (t.emit (.readVal (v.setWidth 36)))
  | _ => .next (s.agentRead by_ o)

/-- MBX_DOORBELL: a write of POST. -/
def execMbxDoorbell (n : Nat) (s : State) : Out := .next (if n < 64 then s.mbxPost n else s)

/-- MBX_RES_READ. -/
def execMbxResRead (n : Nat) (s : State) : Out :=
  if n < 64 then (let (v, t) := s.mbxResRead n; .next (t.emit (.readVal (v.setWidth 36)))) else .next s

/-- HOST_HEARTBEAT: one millisecond of Alidade's clock. -/
def execHostHeartbeat (s : State) : Out := .next (s.barSet 0x14 (s.barGet 0x14 + 1#32))

/-! ## The commands and their checks (R405–R407) -/

/-- A command of R407: opcode, driver command, PLEN, the parameter fields by offset and size. -/
structure CmdRow where
  op : Nat
  drv : Bool
  len : Nat
  fields : List (Nat × Nat)
  deriving DecidableEq, Repr

/-- The commands of R407. -/
def cmdRows : List CmdRow :=
  [⟨0x0001, false, 4, [(0, 4)]⟩, ⟨0x0002, false, 0, []⟩, ⟨0x0003, false, 4, [(0, 4)]⟩,
   ⟨0x0010, true, 32, [(0, 8), (8, 8), (16, 2), (18, 2), (24, 8)]⟩, ⟨0x0011, true, 3, [(0, 2), (2, 1)]⟩,
   ⟨0x0020, true, 44, [(0, 1), (4, 4), (8, 8), (16, 8), (24, 20)]⟩, ⟨0x0021, true, 16, [(0, 1), (8, 8)]⟩,
   ⟨0x0022, true, 8, [(0, 8)]⟩, ⟨0x0023, true, 16, [(0, 2), (8, 8)]⟩,
   ⟨0x0024, true, 26, [(0, 1), (1, 1), (2, 1), (3, 1), (4, 4), (8, 4), (16, 8), (24, 2)]⟩,
   ⟨0x0030, true, 25, [(0, 2), (4, 4), (8, 8), (16, 8), (24, 1)]⟩, ⟨0x0031, true, 2, [(0, 1), (1, 1)]⟩,
   ⟨0x0032, false, 2, [(0, 2)]⟩, ⟨0x0040, true, 32, [(0, 1), (1, 1), (2, 1), (8, 8), (16, 8), (24, 8)]⟩,
   ⟨0x0041, true, 2, [(0, 2)]⟩, ⟨0x0042, true, 4, [(0, 4)]⟩, ⟨0x0043, false, 8, [(0, 2), (4, 4)]⟩,
   ⟨0x0044, false, 5, [(0, 2), (2, 2), (4, 1)]⟩, ⟨0x0050, true, 16, [(0, 2), (8, 8)]⟩,
   ⟨0x0051, true, 16, [(0, 8), (8, 8)]⟩, ⟨0x0052, true, 1, [(0, 1)]⟩, ⟨0x0060, true, 12, [(0, 8), (8, 4)]⟩,
   ⟨0x0061, true, 2, [(0, 1), (1, 1)]⟩, ⟨0x0062, true, 0, []⟩, ⟨0x0063, true, 9, [(0, 8), (8, 1)]⟩]

/-- Every byte of the parameters outside the fields is zero. -/
def CmdRow.reservedOk (c : CmdRow) (par : List Byte) : Bool :=
  (List.range c.len).all (fun i => c.fields.any (fun f => decide (f.1 ≤ i) && decide (i < f.1 + f.2)) || par.getD i 0#8 == 0#8)

/-- The result code with which Alidade refuses a command before it looks at its fields; 0 lets it run (R405, R406) (DEDUCED, log 43). -/
def State.cmdCheck (s : State) (p : Post) : Nat :=
  match cmdRows.find? (fun c => c.op == p.op) with
  | none => if s.ranasState = 1 ∧ p.mbox ≠ 0 then 0x07 else 0x03
  | some c =>
    if s.ranasState = 1 ∧ p.mbox ≠ 0 then 0x07
    else if c.drv ∧ 8 ≤ p.mbox then 0x06
    else if s.ranasState = 3 ∧ ¬ ([0x0001, 0x0002, 0x0003, 0x0051, 0x0052, 0x0060, 0x0061].contains p.op) then 0x07
    else if s.ranasState = 1 ∧ ¬ ([0x0001, 0x0002, 0x0052, 0x0060, 0x0061].contains p.op) then 0x07
    else if p.plen ≠ c.len then 0x04
    else if c.reservedOk p.par = false then 0x05
    else if p.op = 0x0031 ∧ (leAt p.par 0 1 = 0 ∨ 8 < leAt p.par 0 1) then 0x05
    else 0

/-- What a command answers: result code, payload, and the state it leaves. -/
structure CmdRes where
  rc : Nat
  pay : List Byte
  st : State

/-- A command that has had no effect. -/
def State.no (s : State) (rc : Nat) : CmdRes := ⟨rc, [], s⟩
/-- A command that is done. -/
def State.ok (s : State) (pay : List Byte) : CmdRes := ⟨0, pay, s⟩
/-- A command that Alidade could not complete, with an internal code (R406, R410). -/
def State.internal (s : State) (p : Post) (code : Nat) : CmdRes :=
  ⟨0x0D, [], s.logAdd 0x0012 p.mbox (p.op + code * 2 ^ 16)⟩

/-- The oldest post that Alidade has not begun, when it may begin commands (R404, R405). -/
def State.nextPost (s : State) : Option Post := if s.ranasState = 0 then none else s.ranas.posts.head?

/-- Alidade carries out the oldest post, when it is mailbox `n`'s and has opcode `op`. -/
def State.command (s : State) (n op : Nat) (f : Post → State → CmdRes) : State :=
  match s.nextPost with
  | none => s
  | some p =>
    if p.mbox ≠ n ∨ p.op ≠ op then s
    else
      let rc := s.cmdCheck p
      let r := if rc = 0 then f p s else s.no rc
      r.st.modRanas (fun x => { x with
        posts := s.ranas.posts.tail
        done := x.done ++ [{ mbox := n, seq := p.seq, op := op, rc := r.rc, pay := r.pay }] })

/-- Writes a result: payload, RLEN, header, then DONE and the completion message (R403, R411). -/
def State.mbxResult (s : State) (d : CmdDone) : State :=
  let s1 := (s.barBytes (mbxOff d.mbox 0xC8) (d.pay.take 56)).barSet (mbxOff d.mbox 0xC4) (BitVec.ofNat 32 (min d.pay.length 56))
  let s2 := s1.barSet (mbxOff d.mbox 0xC0) (BitVec.ofNat 32 (d.seq + d.rc * 2 ^ 16))
  let st := s2.barGet (mbxOff d.mbox 4)
  let s3 := s2.barSet (mbxOff d.mbox 4) (setFld (setBitAt st 2 false) 0 2 2)
  let irq := s3.barGet (mbxOff d.mbox 0x0C)
  if bitAt irq 11 then s3.msix (fld irq 0 11) else s3

/-- COMMAND_COMPLETE: the result of a command that was carried out is written; a post at the front that Alidade refuses completes with its code. -/
def execCommandComplete (n : Nat) (s : State) : Out :=
  match s.ranas.done.find? (fun d => d.mbox == n) with
  | some d => .next ((s.mbxResult d).modRanas (fun r => { r with done := r.done.filter (fun e => e.mbox != n) }))
  | none =>
    match s.nextPost with
    | none => .next s
    | some p =>
      let rc := s.cmdCheck p
      if p.mbox ≠ n ∨ rc = 0 then .next s
      else .next ((s.mbxResult { mbox := n, seq := p.seq, op := p.op, rc := rc, pay := [] }).modRanas (fun r => { r with posts := r.posts.tail }))

/-- Every mailbox that is BUSY completes with ABANDONED (R405) (DEDUCED, log 49). -/
def State.abandonAll (s : State) : State :=
  let s1 := (List.range 64).foldl (fun t n =>
    if t.mbxState n = 1 then t.mbxResult { mbox := n, seq := fld (t.barGet (mbxOff n 0xC0)) 0 16, op := 0, rc := 0x0E, pay := [] } else t) s
  s1.modRanas (fun r => { r with posts := [], done := [] })

/-- ALIDADE_RESTART: an internal restart; commands that were BUSY complete with ABANDONED (R405). -/
def execAlidadeRestart (s : State) : Out := .next ((s.abandonAll).logAdd 0x0010 0xFFFF 2)

end Sys2Proof.Machine
end

