-- ==== Sys2Proof/Machine/Commands.lean ====
section
/-!
DEFINITION. The Ranas commands (R407–R409): identity, status and log, cores, frame schedules, tick, fabric, memory, semaphores, rollback, dump and reset.
-/
namespace Sys2Proof.Machine

/-! ## Answers -/

/-- A payload from fields of given sizes, in order. -/
def packBytes (l : List (Nat × Nat)) : List Byte := l.flatMap (fun f => bytesOf f.1 f.2)

/-- The low `n` bytes of a free value (DESIGN CHOICE, log 44). -/
def State.freeField (s : State) (n : Nat) : Nat × State :=
  let (k, t) := s.fresh
  (natOfBytes (bytesOf (Config.freeWord k).toNat n), t)

/-- The bank that runs, and the other. -/
def State.runBank (s : State) : FwBank := if bitAt (s.barGet 0x04) 4 then s.ranas.bank1 else s.ranas.bank0
/-- The bank that does not run. -/
def State.otherBank (s : State) : FwBank := if bitAt (s.barGet 0x04) 4 then s.ranas.bank0 else s.ranas.bank1
/-- LORROKU_ID.IMPL. -/
def State.impl (s : State) : Nat := fld (idReg s.variant 0) 16 12

/-- Number of retired cores. -/
def State.retiredCount (s : State) : Nat := ((List.range s.variant.cores).filter s.isRetired).length

/-- The arithmetic clock in MHz (R445). -/
def State.mhz (s : State) : Nat := match s.clockStep with | 0 => 940 | 1 => 705 | _ => 470

/-- GET_IDENTITY: page 0 the module, page 1 + n the core n (DEDUCED, log 52). -/
def State.getIdentity (s : State) (p : Post) : CmdRes :=
  let page := leAt p.par 0 4
  if page = 0 then
    let st := s.barGet 0x04
    s.ok (packBytes [(s.impl, 2), (fld (idReg s.variant 0) 28 4, 1), (0, 1), (s.runBank.version, 4), (s.otherBank.version, 4),
      (fld st 4 1, 1), (fld st 5 1, 1), (0, 2), (s.ranas.fuseSvn, 4), (Config.uid, 16), ((s.barGet 0).toNat, 4), (s.fabId, 2), (s.ctlFld 0x200010 14 1, 1)])
  else
    let n := page - 1
    if s.hasCore n = false then s.no 0x05
    else
      let o := 0x60800 + 8 * n
      s.ok (packBytes [(s.ctlFld o 0 6, 1), (s.ctlFld o 6 1, 1), ((s.isRetired n).toNat, 1), (0, 1),
        (Config.spareCell n 0, 1), (Config.spareCell n 1, 1), (Config.spareCell n 2, 1), (Config.spareCell n 3, 1)])

/-- GET_STATUS: input power, temperatures and the inlet are what the sensors read. -/
def State.getStatus (s : State) : CmdRes :=
  let (pw, s1) := s.freeField 4
  let (die, s2) := s1.freeField 2
  let (inlet, s3) := s2.freeField 2
  s3.ok (packBytes [((s.barGet 0x04).toNat, 4), (s.mhz, 2), (s.ranas.throttle, 2), (pw, 4), (die, 2), (inlet, 2),
    (s.fabState, 1), (s.ctlFld 0x200008 5 4, 1), (s.ctlFld 0x08 0 2, 1), (s.ctlFld 0x08 2 1, 1), (0, 4), (s.now, 8),
    (s.ctlFld 0x60008 0 2, 1), (s.ctlFld 0x60008 2 1, 1), (s.ctlFld 0x60008 5 16, 2), (s.retiredCount, 2)])

/-- The 16 bytes of a log entry (R410). -/
def LogEntry.bytes (e : LogEntry) : List Byte := packBytes [(e.tick, 4), (e.kind, 2), (e.unit, 2), (e.detail, 8)]

/-- GET_LOG: up to three entries from FIRST on. -/
def State.getLog (s : State) (p : Post) : CmdRes :=
  let first := leAt p.par 0 4
  let es := (s.log.drop first).take 3
  s.ok (((packBytes [(first + es.length, 4), (s.log.length, 4)] ++ es.flatMap LogEntry.bytes) ++ List.replicate 48 0#8).take 56)

/-! ## Addresses of tables -/

/-- A range lies in the usable GDDR7. -/
def State.inGddr (s : State) (pa n : Nat) : Bool := decide (pa + n ≤ s.variant.gddrEnd)

/-! ## Cores (R386, R407–R409, R456) -/

/-- Result code of a CORE field: ABSENT on the SN-9220-M, BAD_PARAM on the SN-9440-M (R408). -/
def State.coreAbsent (s : State) : Nat := match s.variant with | .m9220 => 0x08 | .m9440 => 0x05

/-- The word slots of a setup block. -/
def State.setupBlock (s : State) (pa : Nat) : List Word := (List.range 16).map (fun i => s.wordAt (pa + 8 * i))

/-- A setup block that no rule of R409 refuses. -/
def setupOk (w : List Word) : Bool :=
  let g (i : Nat) := w.getD i 0#36
  let fits (n : Nat) (v : Word) := (mregMap n).writeVal false (mregReset n) v == v
  fits 0x13 (g 0) && fits 0x16 (g 1) && decide ((g 2).toNat ≤ (g 3).toNat) && decide ((g 4).toNat ≤ (g 5).toNat) &&
  fits 0x15 (g 6) && decide (fld (g 7) 18 18 = 0) && decide (fld (g 7) 12 6 ≠ 0) && (w.drop 12).all (fun v => v == 0#36)

/-- The K registers of a core from its setup block. -/
def Core.setup (k : Core) (w : List Word) : Core :=
  let g (i : Nat) := w.getD i 0#36
  let k1 := (((k.setMreg 0x13 (g 0)).setMreg 0x16 (g 1)).setMreg 0x23 (g 2)).setMreg 0x24 (g 3)
  let k2 := ((k1.setMreg 0x29 (g 4)).setMreg 0x2A (g 5)).setMreg 0x15 (g 6)
  let k3 := k2.setMreg 0x18 (setFld (k2.getMreg 0x18) 12 6 (fld (g 7) 12 6))
  { k3 with dsp := k3.dsp.set 1 (mkPair (g 9) (g 8)), csp := k3.csp.set 1 (mkPair (g 11) (g 10)) }

/-- The core monitor can start a context on the core: it runs nothing and was not started. -/
def State.startable (s : State) (c : Nat) : Bool :=
  s.live c && !(s.mon c).started && !(s.core c).open && ((s.core c).free || (s.core c).tickTop) && !s.remoteWait c

/-- RUNTIME_START. -/
def State.runtimeStart (s : State) (p : Post) : CmdRes :=
  let entry := leAt p.par 0 8
  let arg := leAt p.par 8 8
  let first := leAt p.par 16 2
  let last := leAt p.par 18 2
  let setup := leAt p.par 24 8
  let cs := (List.range (last + 1 - first)).map (fun i => first + i)
  if last < first ∨ 2 ^ 36 ≤ arg ∨ 2 ^ 44 ≤ entry then s.no 0x05
  else if s.hasCore last = false then s.no s.coreAbsent
  else if cs.any (fun c => !s.startable c) then s.no 0x07
  else if setup ≠ 0 ∧ (setup % 64 ≠ 0 ∨ s.inGddr setup (128 * cs.length) = false) then s.no 0x05
  else if setup ≠ 0 ∧ (s.readErr setup (128 * cs.length)).isSome then s.internal p 1
  else if setup ≠ 0 ∧ cs.any (fun c => !setupOk (s.setupBlock (setup + (c - first) * 128))) then s.no 0x05
  else
    let t := cs.foldl (fun t c =>
      let w := s.setupBlock (setup + (c - first) * 128)
      let t1 := if setup = 0 then t else t.modCore c (fun k => k.setup w)
      (t1.modMon c (fun m => { m with started := true, fresh := false })).startTask c (selfPair entry, word arg, 5#36) .runtime 0) s
    t.ok (packBytes [(cs.length, 2)])

/-- CORE_RESET: a core reset, or with RETIRE its retirement; a retired core gives WRONG_STATE (R444). -/
def State.coreResetCmd (s : State) (p : Post) : CmdRes :=
  let c := leAt p.par 0 2
  let r := leAt p.par 2 1
  if 1 < r then s.no 0x05
  else if s.hasCore c = false then s.no s.coreAbsent
  else if s.isRetired c then s.no 0x07
  else (if r = 1 then s.retireCore c 3 else s.coreReset c).ok []

/-! ## Frame schedules (R47–R50, R304, R363, R407, R408) -/

/-- The task list entry of a core and index in memory: entry PC, argument, flags. -/
def State.taskAt (s : State) (base len c i : Nat) : Pair × Word × Word :=
  let a := base + (c * len + i) * 32
  (mkPair (s.wordAt (a + 8)) (s.wordAt a), s.wordAt (a + 16), s.wordAt (a + 24))

/-- A slot table entry in memory. -/
def State.slotWord (s : State) (base p i : Nat) : BitVec 64 := BitVec.ofNat 64 (natOfBytes (s.bytesAt (base + p * 65536 + i * 8) 8))

/-- Units of two slots of one frame overlap. -/
def slotOverlap (a b : BitVec 64) : Bool :=
  fld a 0 12 == fld b 0 12 && decide (fld a 12 10 < fld b 12 10 + fld b 22 10) && decide (fld b 12 10 < fld a 12 10 + fld a 22 10)

/-- Why a slot table entry is refused, given the entries before it (R50, R304, R407) (DEDUCED, log 43). -/
def State.slotBad (s : State) (p len : Nat) (before : List (BitVec 64)) (e : BitVec 64) : Option Nat :=
  let f := fld e 32 14
  let st := s.flowState f
  if fld e 49 15 ≠ 0 ∨ fld e 46 2 = 3 then some 4
  else if len ≤ fld e 0 12 then some 3
  else if fld e 12 10 < 64 ∨ fld e 22 10 = 0 ∨ 960 < fld e 22 10 ∨ 1024 < fld e 12 10 + fld e 22 10 then some 1
  else if st = 0 ∨ st = 1 ∨ s.flowDev f ≠ s.nbrId p then some 2
  else if before.any (slotOverlap e) then some 0
  else none

/-- The first entry of a slot table that is refused: index and reason. -/
def State.slotsBad (s : State) (p len : Nat) (before : List (BitVec 64)) : List (BitVec 64) → Option (Nat × Nat)
  | [] => none
  | e :: r =>
    match s.slotBad p len before e with
    | some w => some (before.length, w)
    | none => s.slotsBad p len (before ++ [e]) r

/-- SCHED_INSTALL: the tables are checked and copied. -/
def State.schedInstall (s : State) (p : Post) : CmdRes :=
  let i := leAt p.par 0 1
  let len := leAt p.par 4 4
  let tb := leAt p.par 8 8
  let sb := leAt p.par 16 8
  let count (q : Nat) := leAt p.par (24 + 2 * q) 2
  let size := s.variant.cores * len * 32
  let ports := (List.range 10).filter (fun q => count q ≠ 0)
  if 1 < i ∨ len = 0 ∨ 4096 < len ∨ ports.any (fun q => decide (8192 < count q)) then s.no 0x05
  else if ports.any (fun q => decide (s.variant.ports ≤ q)) then s.no 0x08
  else if s.schedNow.any (fun a => a.1 == i) then s.no 0x07
  else if s.inGddr tb size = false ∨ ports.any (fun q => !s.inGddr (sb + q * 65536) (8 * count q)) then s.no 0x05
  else if (s.readErr tb size).isSome ∨ ports.any (fun q => (s.readErr (sb + q * 65536) (8 * count q)).isSome) then s.internal p 1
  else
    let keys := (List.range s.variant.cores).flatMap (fun c => (List.range len).map (fun j => (c, j)))
    match keys.find? (fun e => let t := s.taskAt tb len e.1 e.2; bitAt t.2.2 0 && decide (fld t.2.2 3 33 ≠ 0)) with
    | some e => ⟨0x0A, packBytes [(0xFF, 1), (0, 3), (e.1 * len + e.2, 4), (4, 1)], s⟩
    | none =>
      let table (q : Nat) := (List.range (count q)).map (fun j => s.slotWord sb q j)
      match ports.findSome? (fun q => (s.slotsBad q len [] (table q)).map (fun b => (q, b))) with
      | some (q, j, w) => ⟨0x0A, packBytes [(q, 1), (0, 3), (j, 4), (w, 1)], s⟩
      | none =>
        let tasks := keys.foldl (fun t e => Tbl.set (0#72, 0#36, 0#36) t (e.1 * 4096 + e.2) (s.taskAt tb len e.1 e.2)) []
        let slots := ports.foldl (fun t q => Tbl.set [] t q (table q)) []
        ({ s with sched := { s.sched with sched := Tbl.set {} s.sched.sched i { len := len, tasks := tasks, slots := slots } } } : State).ok []

/-- SCHED_START. -/
def State.schedStart (s : State) (p : Post) : CmdRes :=
  let i := leAt p.par 0 1
  let t := leAt p.par 8 8
  if 1 < i then s.no 0x05
  else if s.schedLen i = 0 then s.no 0x07
  else if t < s.now + 2 then s.no 0x09
  else
    ({ s with sched := { s.sched with pendStart := s.sched.pendStart.filter (fun q => q.2 != t) ++ [(i, t)] } } : State).ok (packBytes [(t, 8)])

/-- SCHED_STOP: a pending start at or after the stop is cancelled. -/
def State.schedStop (s : State) (p : Post) : CmdRes :=
  let at_ := leAt p.par 0 8
  if at_ ≠ 0 ∧ at_ ≤ p.tick then s.no 0x09
  else
    let t := if at_ = 0 then s.now + 1 else at_
    ({ s with sched := { s.sched with
      pendStop := s.sched.pendStop ++ [t], pendStart := s.sched.pendStart.filter (fun q => decide (q.2 < t)) } } : State).ok []

/-- DQ_SET: in GDDR7 or the core's own local store, a multiple of 64; it takes effect at the next SCHED_START. -/
def State.dqSet (s : State) (p : Post) : CmdRes :=
  let c := leAt p.par 0 2
  let pa := leAt p.par 8 8
  if s.hasCore c = false then s.no s.coreAbsent
  else
    let ok := match s.region pa with
      | .gddr => true
      | .ls n _ => n == c
      | _ => false
    if pa ≠ 0 ∧ (pa % 64 ≠ 0 ∨ ok = false) then s.no 0x05
    else ({ s with sched := { s.sched with dqNext := Tbl.insert s.sched.dqNext c (pa + 1) } } : State).ok []

/-! ## Tick and fabric (R34, R35, R45, R290, R321, R431, R432) -/

/-- Every field of a register takes the value that a word gives it: no reserved encoding or bit. -/
def State.regTakes (s : State) (o : Nat) (v : Word) : Bool :=
  (ctlMap s.variant o).writeVal false (ctlReset s.variant o) v == v

/-- TICK_SET. -/
def State.tickSet (s : State) (p : Post) : CmdRes :=
  let ctrl := word (leAt p.par 0 1 + leAt p.par 1 1 * 4 + leAt p.par 2 1 * 2 ^ 10 + leAt p.par 3 1 * 2 ^ 35)
  let period := leAt p.par 4 4
  let next := leAt p.par 8 4
  let sw := leAt p.par 16 8
  let ev := leAt p.par 24 2
  let bad := 2 < leAt p.par 0 1 ∨ 1 < leAt p.par 3 1 ∨ s.regTakes 0x00 ctrl = false ∨ 2 ^ 26 ≤ period ∨ s.regTakes 0x10 (word period) = false ∨
    (sw ≠ 0 ∧ (2 ^ 26 ≤ next ∨ s.regTakes 0x10 (word next) = false)) ∨ ev / 256 % 128 ≠ 0
  if bad then s.no 0x05
  else if leAt p.par 0 1 ≠ s.ctlFld 0x00 0 2 ∧ s.schedActive = true then s.no 0x07
  else
    let s1 := (s.tickWrite 0x00 ctrl).tickWrite 0x10 (word period)
    let s2 := if sw ≠ 0 ∧ s.now + 16 ≤ sw then (s1.tickWrite 0x20 (word (next + 2 ^ 26))).tickWrite 0x28 (word sw) else s1
    (s2.tickWrite 0x58 (word (ev % 256 + ev / 2 ^ 15 * 256))).ok []

/-- FAB_CONFIG: shape, coordinates, admission and limits, then CFG_LOCK; nothing is written while CFG_LOCK is 1. -/
def State.fabConfig (s : State) (p : Post) : CmdRes :=
  let shape := leAt p.par 0 2
  let coord := leAt p.par 4 4
  let adm := leAt p.par 8 8
  let limits := leAt p.par 16 8
  let lock := leAt p.par 24 1
  if s.ctlFld 0x200000 35 1 = 1 then s.no 0x07
  else if 2 ^ 10 ≤ shape ∨ shape = 0 ∨ shapeOk s.variant shape = false ∨ 2 ^ 20 ≤ coord ∨ coordOk shape coord = false ∨
      2 ^ 36 ≤ adm ∨ s.regTakes 0x200028 (word adm) = false ∨ 2 ^ 36 ≤ limits ∨ s.regTakes 0x200030 (word limits) = false ∨ 1 < lock then s.no 0x05
  else
    let s1 := (s.fabShape (word shape)).fabCoord (word coord)
    let s2 := (s1.ctlSet 0x200028 (word adm)).ctlSet 0x200030 (word limits)
    let s3 := if lock = 1 then s2.ctlPut 0x200000 35 1 1 else s2
    s3.ok (packBytes [(s3.fabId, 2)])

/-- FAB_CONTROL with an operation on the whole fabric. -/
def State.fabControl (s : State) (f : State → State) : CmdRes := let t := f s; t.ok (packBytes [(t.fabState, 1)])

/-- FAB_CONTROL with an operation on a port: a write of its FAB_PORT_CTRL. -/
def State.fabPortOp (s : State) (p : Post) (v : Word) : CmdRes :=
  let q := leAt p.par 1 1
  if 10 ≤ q then s.no 0x05
  else if s.variant.ports ≤ q then s.no 0x08
  else s.fabControl (fun t => t.fabPortCtrl q v)

/-- FAB_MEMBERS: a page of the membership. -/
def State.fabMembers (s : State) (p : Post) : CmdRes :=
  let page := leAt p.par 0 2
  if 42 < page then s.no 0x05
  else
    let isM (id : Nat) := Tbl.get false s.fab.members id
    let byte (k : Nat) : Nat := (List.range 8).foldl (fun b i => b + flag (isM (384 * page + 8 * k + i)) i) 0
    s.ok (packBytes ([(384 * page, 2), ((s.fab.members.filter (fun e => e.2)).length, 2), (0, 4)] ++ (List.range 48).map (fun k => (byte k, 1))))

/-! ## Memory and semaphores (R242, R243, R248, R250, R411) -/

/-- 1 GiB. -/
def gib : Nat := 2 ^ 30

/-- CXL_MAP: one decoder range. -/
def State.cxlMap (s : State) (p : Post) : CmdRes :=
  let port := leAt p.par 0 1
  let r := leAt p.par 1 1
  let fl := leAt p.par 2 1
  let base := leAt p.par 8 8
  let size := leAt p.par 16 8
  let dpa := leAt p.par 24 8
  let key := port * 8 + r
  let others := s.cxlRanges.filter (fun e => e.1 != key && e.2.enabled)
  let on := fl % 2 = 1
  if 1 < port ∨ 7 < r ∨ 3 < fl then s.no 0x05
  else if s.variant = .m9220 ∧ (port = 1 ∨ fl / 2 = 1) then s.no 0x08
  else if on ∧ (base % gib ≠ 0 ∨ size % gib ≠ 0 ∨ size = 0 ∨ base < 0x40000000000 ∨ 0x100000000000 < base + size ∨
      others.any (fun e => decide (base < e.2.base + e.2.size) && decide (e.2.base < base + size))) then s.no 0x05
  else if on ∧ 12 * 1024 * gib < others.foldl (fun n e => n + e.2.size) size then s.no 0x0C
  else
    let new : CxlRange := if on then { enabled := true, interleave := fl / 2 == 1, base := base, size := size, dpa := dpa } else {}
    let t : State := { s with cxlRanges := Tbl.set {} s.cxlRanges key new }
    let (cap, t1) := t.freeField 4
    t1.ok (packBytes [(cap, 4), ((!Tbl.get false s.cxlDown port).toNat, 1)])

/-- MEM_POOLS: slots move between the CXL and remote pools, and requests that wait for a slot of the pool that grew go on (R243, R244). -/
def State.memPools (s : State) (p : Post) : CmdRes :=
  let n := leAt p.par 0 2
  if s.variant.hubSlots < n then s.no 0x05 else
    let t : State := { s with cxlSlots := n }
    ((t.admitCxl t.memReqs.length).pumpAll).ok []

/-- REMOTE_TIMEOUT. -/
def State.remoteTimeoutCmd (s : State) (p : Post) : CmdRes :=
  let n := leAt p.par 0 4
  if n < 10 ∨ 10000 < n then s.no 0x05 else ({ s with remoteTimeout := n } : State).ok []

/-- SEM_ADD. -/
def State.semAddCmd (s : State) (p : Post) : CmdRes :=
  let i := leAt p.par 0 2
  let v := (BitVec.ofNat 32 (leAt p.par 4 4)).signExtend 36
  if s.variant.semas ≤ i then s.no 0x05
  else (s.semAdd i v).ok (packBytes [(((s.ctlGet (semOff i)).signExtend 64).toNat, 8)])

/-- SEM_TO_HOST: at most 256 bindings; a binding that has sent its message stays, disarmed, until ARM = 0 removes it (R411). -/
def State.semToHost (s : State) (p : Post) : CmdRes :=
  let i := leAt p.par 0 2
  let v := leAt p.par 2 2
  let arm := leAt p.par 4 1
  if s.variant.semas ≤ i ∨ 2048 ≤ v ∨ 1 < arm then s.no 0x05
  else if arm = 0 then ({ s with semHost := Tbl.set 0 s.semHost i 0 } : State).ok []
  else if Tbl.get 0 s.semHost i = 0 ∧ 256 ≤ s.semHost.length then s.no 0x0C
  else ({ s with semHost := Tbl.set 0 s.semHost i (2 * v + 2) } : State).ok []

/-! ## Rollback, dump and reset (R385, R396, R440) -/

/-- ROLLBACK: refused when the step is not that of the open record. -/
def State.rollbackCmd (s : State) (p : Post) : CmdRes :=
  let step := leAt p.par 0 2
  let rb := leAt p.par 8 8
  if rb < s.now + 4 then s.no 0x09
  else if s.ephOpen = false ∨ s.ctlFld 0x60008 5 16 ≠ step then s.no 0x07
  else (s.modEph (fun x => { x with rollback := some (step, rb) })).ok []

/-- DUMP_SET. -/
def State.dumpSet (s : State) (p : Post) : CmdRes :=
  let len := leAt p.par 8 8
  if len ≠ 0 ∧ len < 4096 then s.no 0x05
  else (s.modRanas (fun r => { r with dump := (leAt p.par 0 8, len) })).ok []

/-- MODULE_RESET: the result goes first; the reset follows. -/
def State.moduleReset (s : State) (p : Post) : CmdRes :=
  let k := leAt p.par 0 1
  if k = 1 ∨ k = 2 then (s.modRanas (fun r => { r with reset := (k, p.mbox) })).ok [] else s.no 0x05

/-! ## The rows: the command that mailbox `n` has posted -/

/-- GET_IDENTITY. -/
def execGetIdentity (n : Nat) (s : State) : Out := .next (s.command n 0x0001 (fun p s => s.getIdentity p))
/-- GET_STATUS. -/
def execGetStatus (n : Nat) (s : State) : Out := .next (s.command n 0x0002 (fun _ s => s.getStatus))
/-- GET_LOG. -/
def execGetLog (n : Nat) (s : State) : Out := .next (s.command n 0x0003 (fun p s => s.getLog p))
/-- RUNTIME_START. -/
def execRuntimeStart (n : Nat) (s : State) : Out := .next (s.command n 0x0010 (fun p s => s.runtimeStart p))
/-- CORE_RESET. -/
def execCoreReset (n : Nat) (s : State) : Out := .next (s.command n 0x0011 (fun p s => s.coreResetCmd p))
/-- SCHED_INSTALL. -/
def execSchedInstall (n : Nat) (s : State) : Out := .next (s.command n 0x0020 (fun p s => s.schedInstall p))
/-- SCHED_START. -/
def execSchedStart (n : Nat) (s : State) : Out := .next (s.command n 0x0021 (fun p s => s.schedStart p))
/-- SCHED_STOP. -/
def execSchedStop (n : Nat) (s : State) : Out := .next (s.command n 0x0022 (fun p s => s.schedStop p))
/-- DQ_SET. -/
def execDqSet (n : Nat) (s : State) : Out := .next (s.command n 0x0023 (fun p s => s.dqSet p))
/-- TICK_SET. -/
def execTickSet (n : Nat) (s : State) : Out := .next (s.command n 0x0024 (fun p s => s.tickSet p))
/-- FAB_CONFIG. -/
def execFabConfig (n : Nat) (s : State) : Out := .next (s.command n 0x0030 (fun p s => s.fabConfig p))

/-- A FAB_CONTROL command whose OP is `op`. -/
def State.fabCommand (s : State) (n op : Nat) (f : Post → State → CmdRes) : State :=
  match s.nextPost with
  | none => s
  | some p => if p.op = 0x0031 ∧ s.cmdCheck p = 0 ∧ leAt p.par 0 1 ≠ op then s else s.command n 0x0031 f

/-- FAB_CONTROL OP 1. -/
def execFabControlEnable (n : Nat) (s : State) : Out :=
  .next (s.fabCommand n 1 (fun _ s => s.fabControl (fun t => t.fabCtrl (setBitAt t.fabKeep 0 true))))
/-- FAB_CONTROL OP 2. -/
def execFabControlAuth (n : Nat) (s : State) : Out :=
  .next (s.fabCommand n 2 (fun _ s => s.fabControl (fun t => t.fabCtrl (setBitAt t.fabKeep 1 true))))
/-- FAB_CONTROL OP 3. -/
def execFabControlDrain (n : Nat) (s : State) : Out :=
  .next (s.fabCommand n 3 (fun _ s => s.fabControl (fun t => t.fabCtrl (setBitAt t.fabKeep 2 true))))
/-- FAB_CONTROL OP 4. -/
def execFabControlRejoin (n : Nat) (s : State) : Out :=
  .next (s.fabCommand n 4 (fun _ s => s.fabControl (fun t => t.fabCtrl (setBitAt t.fabKeep 3 true))))
/-- FAB_CONTROL OP 5. -/
def execFabControlDisable (n : Nat) (s : State) : Out :=
  .next (s.fabCommand n 5 (fun _ s => s.fabControl (fun t => t.fabCtrl (setBitAt t.fabKeep 0 false))))
/-- FAB_CONTROL OP 6. -/
def execFabControlPortDisable (n : Nat) (s : State) : Out := .next (s.fabCommand n 6 (fun p s => s.fabPortOp p 1#36))
/-- FAB_CONTROL OP 7. -/
def execFabControlPortEnable (n : Nat) (s : State) : Out := .next (s.fabCommand n 7 (fun p s => s.fabPortOp p 0#36))
/-- FAB_CONTROL OP 8. -/
def execFabControlPortRetrain (n : Nat) (s : State) : Out :=
  .next (s.fabCommand n 8 (fun p s => s.fabPortOp p (setBitAt (s.ctlGet (portOff (leAt p.par 1 1) 0) &&& 1#36) 1 true)))
/-- FAB_MEMBERS. -/
def execFabMembers (n : Nat) (s : State) : Out := .next (s.command n 0x0032 (fun p s => s.fabMembers p))
/-- CXL_MAP. -/
def execCxlMap (n : Nat) (s : State) : Out := .next (s.command n 0x0040 (fun p s => s.cxlMap p))
/-- MEM_POOLS. -/
def execMemPools (n : Nat) (s : State) : Out := .next (s.command n 0x0041 (fun p s => s.memPools p))
/-- REMOTE_TIMEOUT. -/
def execRemoteTimeout (n : Nat) (s : State) : Out := .next (s.command n 0x0042 (fun p s => s.remoteTimeoutCmd p))
/-- SEM_ADD. -/
def execSemAdd (n : Nat) (s : State) : Out := .next (s.command n 0x0043 (fun p s => s.semAddCmd p))
/-- SEM_TO_HOST. -/
def execSemToHost (n : Nat) (s : State) : Out := .next (s.command n 0x0044 (fun p s => s.semToHost p))
/-- ROLLBACK. -/
def execRollback (n : Nat) (s : State) : Out := .next (s.command n 0x0050 (fun p s => s.rollbackCmd p))
/-- DUMP_SET. -/
def execDumpSet (n : Nat) (s : State) : Out := .next (s.command n 0x0051 (fun p s => s.dumpSet p))
/-- MODULE_RESET. -/
def execModuleReset (n : Nat) (s : State) : Out := .next (s.command n 0x0052 (fun p s => s.moduleReset p))

end Sys2Proof.Machine
end

