-- ==== Sys2Proof/Machine/Mgmt.lean ====
section
/-!
DEFINITION. Firmware banks (R412–R416), debug tokens (R421), attestation (R417), management over I3C (R418), the eyepiece port (R419, R420), and the host's accesses to device memory (R399).
-/
namespace Sys2Proof.Machine

/-! ## Firmware images and banks (R412, R413, R415, R416) -/

/-- Bit of IMPL_MASK for this variant. -/
def State.implBit (s : State) : Nat := match s.variant with | .m9440 => 0 | .m9220 => 1

/-- The public key's digest is the fuse key of an index. -/
def keyOk (idx : Nat) (key : List Byte) : Bool := decide (idx < 4) && natOfBytes (shake256 key 64) == Config.signerDigest idx

/-- REASON of R413 for an image; 0 is valid. -/
def State.imageCheck (s : State) (l : List Byte) : Nat :=
  let body := leAt l 0x0C 4
  let key := (l.drop 0x60).take 57
  if l.take 8 ≠ [0x52#8, 0x41#8, 0x4E#8, 0x41#8, 0x53#8, 0x46#8, 0x57#8, 0x31#8] ∨ leAt l 8 4 ≠ 1 then 1
  else if keyOk (leAt l 0x1C 4) key = false then 2
  else if ed448Verify key (l.take 0xA0) ((l.drop 0xA0).take 114) = false then 3
  else if 67108352 < body ∨ l.length < 0x200 + body ∨ (l.drop 0x20).take 64 ≠ shake256 ((l.drop 0x200).take body) 64 then 4
  else if leAt l 0x14 4 < s.ranas.fuseSvn then 5
  else if bitAt (BitVec.ofNat 32 (leAt l 0x18 4)) s.implBit = false then 6
  else 0

/-- Number of the bank that does not run. -/
def State.otherNo (s : State) : Nat := 1 - fld (s.barGet 0x04) 4 1

/-- Writes a bank. -/
def State.setBank (s : State) (n : Nat) (b : FwBank) : State :=
  s.modRanas (fun r => if n = 0 then { r with bank0 := b } else { r with bank1 := b })

/-- A valid image goes to the bank that does not run; a refused one, and a flash write that fails, leave the bank (R406); each is logged (R410, R413). -/
def State.storeImage (s : State) (flashFails : Bool) (l : List Byte) : Nat × State :=
  let w := if s.imageCheck l = 0 ∧ flashFails = true then 7 else s.imageCheck l
  let v := leAt l 0x10 4
  let s1 := if w = 0 then s.setBank s.otherNo { valid := true, version := v, svn := leAt l 0x14 4, image := l.take (0x200 + leAt l 0x0C 4) } else s
  (w, s1.logAdd 0x000E s.otherNo (w + v * 2 ^ 8))

/-- FW_WRITE. -/
def State.fwWrite (s : State) (flashFails : Bool) (p : Post) : CmdRes :=
  let pa := leAt p.par 0 8
  let len := leAt p.par 8 4
  if bitAt (s.barGet 0x04) 5 = true ∨ s.ranas.updating = true then s.no 0x07
  else if 2 ^ 26 < len ∨ s.inGddr pa len = false then s.no 0x05
  else if (s.readErr pa len).isSome then s.internal p 1
  else
    let l := s.bytesAt pa len
    let (w, t) := s.storeImage flashFails l
    ⟨if w = 0 then 0 else 0x0B, packBytes [(w, 1), (leAt l 0x10 4, 4)], t⟩

/-- FW_ACTIVATE: a bank is marked for trial, or the running bank is committed and the fuse SVN raised. -/
def State.fwActivate (s : State) (bank commit : Nat) : Nat × State :=
  if 1 < bank ∨ 1 < commit then (0x05, s)
  else if commit = 0 then (0, s.modRanas (fun r => { r with trial := some bank }))
  else if bank = s.otherNo then (0x07, s)
  else
    let s1 := s.modRanas (fun r => { r with committed := bank, fuseSvn := max r.fuseSvn s.runBank.svn })
    (0, s1.barSet 0x04 (setBitAt (s1.barGet 0x04) 5 false))

/-- FW_WRITE of a mailbox, and whether the write to flash fails (R413). -/
def execFwWrite (n : Nat × Bool) (s : State) : Out := .next (s.command n.1 0x0060 (fun p s => s.fwWrite n.2 p))
/-- FW_ACTIVATE. -/
def execFwActivate (n : Nat) (s : State) : Out :=
  .next (s.command n 0x0061 (fun p s => let (rc, t) := s.fwActivate (leAt p.par 0 1) (leAt p.par 1 1); ⟨rc, [], t⟩))

/-! ## Debug tokens (R421) -/

/-- A new nonce of 32 bytes. -/
def State.newNonce (s : State) : List Byte × State :=
  let (k, t) := s.fresh
  let n := (Config.freeBytes k 32 ++ List.replicate 32 0#8).take 32
  (n, t.modRanas (fun r => { r with nonce := some n }))

/-- REASON for which a token is refused; 0 is accepted. -/
def State.tokenCheck (s : State) (l : List Byte) : Nat :=
  let zero (off n : Nat) := leAt l off n == 0
  let key := (l.drop 0x40).take 57
  if leAt l 0 4 ≠ 1 ∨ 32 ≤ leAt l 4 4 ∨ zero 0x3C 4 = false ∨ zero 0x79 7 = false ∨ zero 0xF2 14 = false then 1
  else if leAt l 8 16 ≠ Config.uid % 2 ^ 128 then 2
  else if s.ranas.nonce ≠ some ((l.drop 0x18).take 32) then 3
  else if keyOk (leAt l 0x38 4) key = false then 4
  else if ed448Verify key (l.take 0x80) ((l.drop 0x80).take 114) = false then 5
  else 0

/-- Presents a token: the nonce is consumed, and an accepted token replaces the one in force. -/
def State.putToken (s : State) (l : List Byte) : Nat × State :=
  let w := s.tokenCheck l
  let s1 := s.modRanas (fun r => { r with nonce := none })
  if w ≠ 0 then (w, s1)
  else
    let s2 := s1.modRanas (fun r => { r with token := some (leAt l 4 4) })
    let s3 := s2.barSet 0x04 (setBitAt (s2.barGet 0x04) 6 true)
    (0, (s3.hostEvent 8).logAdd 0x000F 0xFFFF (leAt l 4 4))

/-- The core is resumed by the eyepiece. -/
def Core.eyeGo (k : Core) : Core := { k with eyeHalt := false, eyeStep := false }

/-- Revokes the token in force; cores that the eyepiece halted go on. -/
def State.revokeToken (s : State) : State :=
  let s1 := s.modRanas (fun r => { r with token := none })
  let s2 := s1.barSet 0x04 (setBitAt (s1.barGet 0x04) 6 false)
  ((List.range s.variant.cores).foldl (fun t c => t.modCore c Core.eyeGo) s2).logAdd 0x000F 0xFFFF 0

/-- DEBUG_TOKEN. -/
def State.debugToken (s : State) (p : Post) : CmdRes :=
  let pa := leAt p.par 0 8
  let rev := leAt p.par 8 1
  if 1 < rev then s.no 0x05
  else if rev = 1 then s.revokeToken.ok (packBytes [(0, 4)])
  else if s.inGddr pa 256 = false then s.no 0x05
  else if (s.readErr pa 256).isSome then s.internal p 1
  else
    let l := s.bytesAt pa 256
    let (w, t) := s.putToken l
    if w = 0 then t.ok (packBytes [(leAt l 4 4, 4)]) else ⟨0x0B, packBytes [(w, 1)], t⟩

/-- DEBUG_NONCE. -/
def execDebugNonce (n : Nat) (s : State) : Out := .next (s.command n 0x0062 (fun _ s => let (b, t) := s.newNonce; t.ok b))
/-- DEBUG_TOKEN. -/
def execDebugToken (n : Nat) (s : State) : Out := .next (s.command n 0x0063 (fun p s => s.debugToken p))

/-! ## Attestation (R417): transport 0 MCTP, 1 DOE -/

/-- Stage of an SPDM connection. -/
def State.spdmStage (s : State) (t : Nat) : Nat := Tbl.get 0 s.ranas.spdm t
/-- A request at a stage that the connection has reached: the stage it leaves, and the answer; otherwise an error answer (PRESUMED, log 46). -/
def State.spdmAnswer (s : State) (t need stage : Nat) (ok : Bool) (body : List Byte) : State :=
  if 1 < t then s
  else if s.spdmStage t < need ∨ ok = false then s.emit (.answer t 1 [])
  else (s.modRanas (fun r => { r with spdm := Tbl.set 0 r.spdm t stage })).emit (.answer t 0 body)

/-- `n` bytes that nothing constrains: a signature. -/
def State.freeList (s : State) (n : Nat) : List Byte × State :=
  let (k, t) := s.fresh
  ((Config.freeBytes k n ++ List.replicate n 0#8).take n, t)

/-- A measurement block by index: 1–3 and 5 hashed, 4 and 6 raw bytes. -/
def State.measurement (s : State) (i : Nat) : List Byte :=
  let st := s.barGet 0x04
  match i with
  | 4 => packBytes [(s.runBank.version, 4), (s.runBank.svn, 4), (s.ranas.fuseSvn, 4), (fld st 4 1, 1), (fld st 5 1, 1)]
  | 6 => packBytes [(s.ranas.token.getD 0, 4)]
  | _ => sha3x512 (Config.measured i (if i = 2 ∨ i = 3 then s.runBank.image.drop 0x200 else []))

/-- GET_VERSION: the connection starts again; versions 1.2 and 1.3. -/
def execGetVersion (t : Nat) (s : State) : Out := .next (s.spdmAnswer t 0 1 true [0x12#8, 0x13#8])
/-- GET_CAPABILITIES of a version. -/
def execGetCapabilities (t version : Nat) (s : State) : Out :=
  .next (s.spdmAnswer t 1 2 (version == 0x12 || version == 0x13) [BitVec.ofNat 8 version])
/-- NEGOTIATE_ALGORITHMS: Ed448 and SHA3-512 must be offered. -/
def execNegotiateAlgorithms (t : Nat) (ed448 sha3 : Bool) (s : State) : Out := .next (s.spdmAnswer t 2 3 (ed448 && sha3) [])
/-- GET_DIGESTS: the digest of slot 0's chain; other slots are empty. -/
def execGetDigests (t : Nat) (s : State) : Out := .next (s.spdmAnswer t 3 3 true (1#8 :: sha3x512 Config.certChain))
/-- GET_CERTIFICATE: a part of the chain of slot 0. -/
def execGetCertificate (t slot off len : Nat) (s : State) : Out :=
  .next (s.spdmAnswer t 3 3 (slot == 0) ((Config.certChain.drop off).take len))
/-- CHALLENGE of slot 0: the answer is signed with the identity key. -/
def execChallenge (t slot : Nat) (s : State) : Out :=
  let (sig, s1) := s.freeList 114
  .next (s1.spdmAnswer t 3 3 (slot == 0) (sha3x512 Config.certChain ++ sig))
/-- GET_MEASUREMENTS: index 0 the number of blocks, 0xFF all, else one block; signed when asked. -/
def execGetMeasurements (t index : Nat) (signed : Bool) (s : State) : Out :=
  let (sig, s1) := s.freeList 114
  let body := if index = 0 then [6#8] else if index = 0xFF then (List.range 6).flatMap (fun i => s.measurement (i + 1)) else s.measurement index
  .next (s1.spdmAnswer t 3 3 (decide (index ≤ 6) || index == 0xFF) (body ++ (if signed then sig else [])))

/-! ## Management over I3C (R418): answers on port 0, code 0 done -/

/-- PLDM_FIRMWARE_UPDATE: an update starts, or its image arrives and is written to the bank that does not run; refused while FW_WRITE runs (busy, 4) or the running bank is on trial. -/
def execPldmFirmwareUpdate (image : Option (List Byte × Bool)) (s : State) : Out :=
  if s.ranas.done.any (fun d => d.op == 0x0060) then .next (s.emit (.answer 0 4 []))
  else if bitAt (s.barGet 0x04) 5 then .next (s.emit (.answer 0 2 []))
  else
    match image with
    | none => .next ((s.modRanas (fun r => { r with updating := true })).emit (.answer 0 0 []))
    | some (l, flashFails) =>
      if s.ranas.updating = false then .next (s.emit (.answer 0 2 []))
      else
        let (w, t) := s.storeImage flashFails l
        let t1 := t.modRanas (fun r => { r with updating := false })
        .next (if w = 0 then (t1.hostEvent 5).emit (.answer 0 0 []) else t1.emit (.answer 0 3 [BitVec.ofNat 8 w]))

/-- ACTIVATE_FIRMWARE: FW_ACTIVATE with COMMIT 0 of the bank that an update writes. -/
def execActivateFirmware (s : State) : Out :=
  let (rc, t) := s.fwActivate s.otherNo 0
  .next (t.emit (.answer 0 rc []))

/-- PLDM_SENSOR_READ: clock and state from the device, the others as the sensors read; dies that the variant lacks are not present (2), other numbers are unknown (1). -/
def execPldmSensorRead (n : Nat) (s : State) : Out :=
  if n = 11 then .next (s.emit (.answer 0 0 (bytesOf s.mhz 4)))
  else if n = 20 then .next (s.emit (.answer 0 0 (bytesOf s.ranasState 4)))
  else if n = 0 ∨ 10 < n then .next (s.emit (.answer 0 1 []))
  else if s.variant = .m9220 ∧ (n = 6 ∨ n = 7) then .next (s.emit (.answer 0 2 []))
  else
    let (v, t) := s.freeField 4
    .next (t.emit (.answer 0 0 (bytesOf v 4)))

/-- MCTP_CONTROL_MESSAGE: assigns an EID, or answers with the one in use. -/
def execMctpControlMessage (assign : Option Nat) (s : State) : Out :=
  match assign with
  | none => .next (s.emit (.answer 0 0 (bytesOf s.ranas.eid 1)))
  | some e =>
    if e = 0 ∨ 255 ≤ e then .next (s.emit (.answer 0 1 []))
    else .next ((s.modRanas (fun r => { r with eid := e })).emit (.answer 0 0 (bytesOf e 1)))

/-- PLDM_BASE_DISCOVERY: the PLDM types served are 0, 2 and 5. -/
def execPldmBaseDiscovery (s : State) : Out := .next (s.emit (.answer 0 0 [0#8, 2#8, 5#8]))

/-! ## Physical accesses by management -/

/-- `n` bytes at a physical address can be accessed: memory, or whole word slots of a control window. -/
def State.physOk (s : State) (pa n : Nat) : Bool :=
  (List.range n).all (fun i => match s.region (pa + i) with
    | .bad => false
    | .ctl _ => pa % 8 == 0 && n % 8 == 0
    | .cxl => (s.cellKey (pa + i)).isSome
    | _ => true)

/-- A range cut at the ends of 64-byte lines, and in the control windows into word slots. -/
def State.physCuts (s : State) (pa n : Nat) : List (Nat × Nat) :=
  (cutLines pa n (n / 64 + 2)).flatMap (fun p => match s.region p.1 with
    | .ctl _ => (List.range (p.2 / 8)).map (fun i => (p.1 + 8 * i, 8))
    | _ => [p])

/-- Reads bytes by physical address; none where a detected error is met. -/
def State.physRead (s : State) : List (Nat × Nat) → List Byte → Option (List Byte) × State
  | [], acc => (some acc, s)
  | (pa, n) :: r, acc =>
    match s.region pa with
    | .ctl o => let (v, t) := s.ctlRead .alidade o; t.physRead r (acc ++ wordBytes v)
    | _ =>
      match s.readErr pa n with
      | some src => (none, s.memFail src pa)
      | none => (s.agentTouch (s.homeDie pa) pa none none false).physRead r (acc ++ s.bytesAt pa n)

/-- Writes bytes by physical address; a detected error in a line written in part stops it. The writes of R253 do not include it, so no generation counter advances (DEDUCED, log 48). -/
def State.physWrite (s : State) : List (Nat × Nat) → List Byte → Bool × State
  | [], _ => (true, s)
  | (pa, n) :: r, l =>
    match s.region pa with
    | .ctl o => (s.ctlWrite .alidade o (wordOfBytes (l.take 8))).physWrite r (l.drop n)
    | _ =>
      match s.writeErr pa n with
      | some src => (false, s.memFail src pa)
      | none => ((s.agentTouch (s.homeDie pa) pa none none true).memQuiet pa (l.take n)).physWrite r (l.drop n)

/-! ## The eyepiece port (R419, R420): answers on port 2 -/

/-- An answer of the port: status and payload. -/
def State.eye (s : State) (status : Nat) (body : List Byte) : State := s.emit (.answer 2 status body)

/-- The token in force permits a bit. -/
def State.eyeMay (s : State) (bit : Nat) : Bool := s.ranas.token.any (fun p => bitAt (BitVec.ofNat 32 p) bit)

/-- The core is on this variant, not retired, and halted by the port. -/
def State.eyeHalted (s : State) (c : Nat) : Bool := s.hasCore c && !s.isRetired c && (s.core c).eyeHalt && !(s.core c).eyeStep

/-- The state item of a number: 8 bytes (R420). -/
def State.eyeItem (s : State) (c n : Nat) : Option (List Byte) :=
  let k := s.core c
  let w (v : Word) : Option (List Byte) := some (wordBytes v)
  let half (p : Pair) (i : Nat) : Option (List Byte) := w (if i % 2 = 0 then lo36 p else hi36 p)
  if n < 0x100 then (if (rdmLevel n).isSome then w (s.rdm c n) else none)
  else if n < 0x120 then w (k.getW (BitVec.ofNat 5 (n - 0x100)))
  else if n < 0x140 then half (k.getA (BitVec.ofNat 4 ((n - 0x120) / 2))) n
  else if n < 0x142 then half k.pc n
  else if n = 0x142 then w k.psw
  else if n = 0x143 then w k.aflags
  else if n = 0x144 then w k.afpos
  else if n = 0x145 then w k.mpl
  else if n = 0x146 then w k.mph
  else if n = 0x147 then w k.mq
  else if n = 0x148 then w k.mrem
  else if 0x150 ≤ n ∧ n < 0x156 then half (k.csp.get ((n - 0x150) / 2)) n
  else if 0x158 ≤ n ∧ n < 0x15E then half (k.dsp.get ((n - 0x158) / 2)) n
  else if 0x160 ≤ n ∧ n < 0x160 + vpipes then w (k.getAmax (n - 0x160))
  else if n = 0x168 then w k.arrStatus
  else if 0x170 ≤ n ∧ n < 0x178 then some (bytesOf (k.getM (BitVec.ofNat 3 (n - 0x170))).toNat 8)
  else if 0x200 ≤ n ∧ n < 0x200 + 3 * nplates then
    let p := k.plate ((n - 0x200) / 3)
    w (match (n - 0x200) % 3 with | 0 => p.cfg | 1 => p.status | _ => p.fpos)
  else if 0x2000 ≤ n ∧ n < 0x4000 ∧ n % 0x100 < vlanes then w ((k.getV (BitVec.ofNat 5 ((n - 0x2000) / 0x100))).getD (n % 0x100) 0#36)
  else none

/-- GET_ID. -/
def execGetId (s : State) : Out := .next (s.eye 0 (packBytes [(Config.uid, 16), (s.impl, 2)]))
/-- GET_NONCE. -/
def execGetNonce (s : State) : Out := let (b, t) := s.newNonce; .next (t.eye 0 b)
/-- PUT_TOKEN: 256 bytes. -/
def execPutToken (l : List Byte) (s : State) : Out :=
  if l.length ≠ 256 then .next (s.eye 2 [])
  else
    let (w, t) := s.putToken l
    .next (if w = 0 then t.eye 0 (packBytes [(leAt l 4 4, 4)]) else t.eye 3 [])
/-- READ_STATE. -/
def execReadState (c n : Nat) (s : State) : Out :=
  if s.eyeMay 0 = false then .next (s.eye 1 [])
  else if s.eyeHalted c = false then .next (s.eye 2 [])
  else
    match s.eyeItem c n with
    | some b => .next (s.eye 0 b)
    | none => .next (s.eye 2 [])
/-- HALT. -/
def execHalt (c : Nat) (s : State) : Out :=
  if s.eyeMay 1 = false then .next (s.eye 1 [])
  else if s.hasCore c = false ∨ s.isRetired c = true then .next (s.eye 2 [])
  else .next ((s.modCore c (fun k => { k with eyeHalt := true, eyeStep := false })).eye 0 [])
/-- RESUME. -/
def execResume (c : Nat) (s : State) : Out :=
  if s.eyeMay 1 = false then .next (s.eye 1 [])
  else if s.eyeHalted c = false then .next (s.eye 2 [])
  else .next ((s.modCore c Core.eyeGo).eye 0 [])
/-- STEP: the next instruction of the halted core issues. -/
def execStep (c : Nat) (s : State) : Out :=
  if s.eyeMay 1 = false then .next (s.eye 1 [])
  else if s.eyeHalted c = false then .next (s.eye 2 [])
  else .next ((s.modCore c (fun k => { k with eyeStep := true })).eye 0 [])
/-- READ_MEM. -/
def execReadMem (pa n : Nat) (s : State) : Out :=
  if s.eyeMay 2 = false then .next (s.eye 1 [])
  else if 4096 < n ∨ s.physOk pa n = false then .next (s.eye 2 [])
  else
    match s.physRead (s.physCuts pa n) [] with
    | (some b, t) => .next (t.eye 0 b)
    | (none, t) => .next (t.eye 2 [])
/-- WRITE_MEM. -/
def execWriteMem (pa : Nat) (l : List Byte) (s : State) : Out :=
  if s.eyeMay 3 = false then .next (s.eye 1 [])
  else if 4096 < l.length ∨ s.physOk pa l.length = false then .next (s.eye 2 [])
  else
    match s.physWrite (s.physCuts pa l.length) l with
    | (true, t) => .next (t.eye 0 [])
    | (false, t) => .next (t.eye 2 [])
/-- ALIDADE_TRACE: `n` trace bytes, at most 4,096. -/
def execAlidadeTrace (n : Nat) (s : State) : Out :=
  if s.eyeMay 4 = false then .next (s.eye 1 [])
  else let (b, t) := s.freeList (min n 4096); .next (t.eye 0 b)
/-- READ_PLATE: the slots of a row. -/
def execReadPlate (c p r : Nat) (s : State) : Out :=
  if s.eyeMay 0 = false then .next (s.eye 1 [])
  else if s.eyeHalted c = false ∨ nplates ≤ p ∨ 64 ≤ r then .next (s.eye 2 [])
  else .next (s.eye 0 (((s.core c).plate p).row r |>.flatMap wordBytes))
/-- READ_SET: the cell records of a stationary row. -/
def execReadSet (c sel j : Nat) (s : State) : Out :=
  let a := (s.core c).aset sel
  if s.eyeMay 0 = false then .next (s.eye 1 [])
  else if s.eyeHalted c = false ∨ sel = 0 ∨ 8 < sel ∨ a.valid = false ∨ a.n ≤ j then .next (s.eye 2 [])
  else .next (s.eye 0 (((a.cells.drop (2 * a.k * j)).take (2 * a.k)).flatMap wordBytes))

/-! ## Host accesses to GDDR7 (R399) -/

/-- The host reads part of a line: data, or poison where a detected error is met. -/
def State.hostLineRead (s : State) (pa n : Nat) : List Byte × Bool × State :=
  let t := s.agentTouch (s.homeDie pa) pa none none false
  match s.readErr pa n with
  | some src => (s.bytesAt pa n, true, t.memFail src pa)
  | none => (s.bytesAt pa n, false, t)

/-- The host writes part of a line; nothing is written to a failing line that it covers in part. -/
def State.hostLineWrite (s : State) (pa : Nat) (l : List Byte) : State :=
  let t := s.agentTouch (s.homeDie pa) pa none none true
  match s.writeErr pa l.length with
  | some src => t.memFail src pa
  | none => t.memPut pa l

/-- HOST_CXL_MEM_ACCESS: a read of `n` bytes, or a write of the bytes given, within a line of the HDM range; while GDDR7 is not trained, reads return poison and writes are dropped. -/
def execHostCxlMemAccess (pa n : Nat) (data : Option (List Byte)) (s : State) : Out :=
  let len := match data with | some l => l.length | none => n
  if len = 0 ∨ pa / 64 ≠ (pa + len - 1) / 64 ∨ s.inGddr pa len = false then .next s
  else
    match data with
    | none =>
      if s.ranas.gddrBad ≠ [] then (let (b, t) := s.freeList n; .next (t.emit (.hostData b true)))
      else
        let (b, bad, t) := s.hostLineRead pa n
        .next (t.emit (.hostData b bad))
    | some l =>
      if s.ranas.gddrBad ≠ [] then .next (s.logAdd 0x000D 0xFFFF pa) else .next (s.hostLineWrite pa l)

end Sys2Proof.Machine
end

