-- ==== Sys2Proof/Machine/Power.lean ====
section
/-!
DEFINITION. Power, reset and bring-up (R434–R451), clock steps (R445–R447), boot (R414), and the fatal error with its dump (R395–R397).
-/
namespace Sys2Proof.Machine

/-! ## Fatal error and dump (R395–R397) -/

/-- RANAS_STATE.STATE takes a value; READY and FATAL are reported as PLDM events (R418). -/
def State.setRanasState (s : State) (st : Nat) : State :=
  let s1 := s.barSet 0x04 (setFld (s.barGet 0x04) 0 4 st)
  if st = 2 ∨ st = 3 then s1.emit (.pldmEvent 20 st) else s1

/-- A fatal error is declared: KIND 3 signals to every enabled core, OUT_OF_SERVICE, the log (DEDUCED, log 41). -/
def State.fatalBegin (s : State) (reason code : Nat) : State :=
  if s.ranas.fatal.isSome then s
  else
    let s1 := (List.range s.variant.cores).foldl (fun t c => if t.isRetired c then t else t.signal c 3 0 0) s
    ((s1.fabFatal).logAdd 0x0003 0xFFFF (reason + code * 2 ^ 8)).modRanas (fun r => { r with fatal := some (reason, code, s.now) })

/-- Every core has run its M handler: none issues. -/
def State.coresQuiet (s : State) : Bool := (List.range s.variant.cores).all (fun c => (s.core c).run != .running)

/-- The cores stop. -/
def State.coresStop (s : State) : State :=
  (List.range s.variant.cores).foldl (fun t c => t.modCore c (fun k =>
    match k.run with
    | .running => { k with run := .stopped }
    | .waiting => { k with run := .stopped }
    | .idle => { k with run := .stopped }
    | _ => k)) s

/-- Every tensor cache is written back (TC_OP 1). -/
def State.flushCaches (s : State) : State := { s with tcLines := [] }

/-- A section of `n` bytes: what is known, then bytes that nothing constrains. -/
def State.padFree (s : State) (n : Nat) (b : List Byte) : List Byte × State :=
  let (f, t) := s.freeList (n - b.length)
  ((b ++ f).take n, t)

/-- Window offsets of SPR_DIE_d and SPR_POS_n (R387). -/
def State.sprOffs (s : State) : List Nat :=
  (List.range s.variant.dies).map (fun d => 0x60700 + 8 * d) ++ (List.range s.variant.cores).map (fun n => 0x60800 + 8 * n)

/-- Registers of the control windows as word slots. -/
def State.regSlots (s : State) (offs : List Nat) : List Byte := offs.flatMap (fun o => wordBytes (s.ctlPeek .alidade o))

/-- IDENT: identification and feature registers, the module's identity, the SPR_ registers (R6, R396) (DESIGN CHOICE, log 42). -/
def State.dumpIdent (s : State) : List Byte :=
  (List.range 16).flatMap (fun n => wordBytes (idReg s.variant n)) ++ packBytes [(Config.uid, 16), (s.fabId, 2)] ++ s.regSlots s.sprOffs

/-- FAULT: the fault log, MEM_ERR_ of every die, TICK_STATUS, FAB_EVENTS, CE_EVENTS, EPH_EVENTS (R396) (DESIGN CHOICE, log 42). -/
def State.dumpFault (s : State) : List Byte :=
  s.log.flatMap LogEntry.bytes ++
    s.regSlots ((List.range s.variant.dies).flatMap (fun d => [0, 8, 0x10, 0x18].map (fun o => dieOff d + 0x2000 + o)) ++
      [0x08, 0x200070, 0x70010, 0x60060])

/-- CORESTATE of one core: its registers in the order that R396 lists them (DESIGN CHOICE, log 42). -/
def State.dumpCore (s : State) (c : Nat) : List Byte :=
  let k := s.core c
  (List.range 32).flatMap (fun r => wordBytes (k.getW (BitVec.ofNat 5 r))) ++
  (List.range 15).flatMap (fun r => pairBytes (k.getA (BitVec.ofNat 4 r))) ++ [k.dsp.m, k.dsp.k, k.dsp.t].flatMap pairBytes ++
  [k.csp.m, k.csp.k, k.csp.t].flatMap pairBytes ++ [k.mpl, k.mph, k.mq, k.mrem].flatMap wordBytes ++ pairBytes k.pc ++
  [k.psw, k.aflags, k.afpos, k.getAmax 0, k.getAmax 1].flatMap wordBytes ++ (List.range 0x32).flatMap (fun n => wordBytes (s.rdm c n)) ++
  (List.range 32).flatMap (fun r => (fullRow (k.getV (BitVec.ofNat 5 r))).flatMap wordBytes) ++
  (List.range 8).flatMap (fun r => bytesOf (k.getM (BitVec.ofNat 3 r)).toNat 8)

/-- The sections of the dump, in order: id and body; bytes whose contents or place the spec does not give are free (DESIGN CHOICE, log 42). -/
def State.dumpSections (s : State) (lost : List Nat) : List (Nat × List Byte) × State :=
  let cores := List.range s.variant.cores
  let (ident, s1) := s.padFree 8192 s.dumpIdent
  let (fault, s2) := s1.padFree 65536 s.dumpFault
  let (states, s3) := cores.foldl (fun (acc : List Byte × State) c =>
    let (b, t) := acc.2.padFree 32768 (s.dumpCore c)
    (acc.1 ++ b, t)) ([], s2)
  let devreg := (List.range 0x80000).flatMap (fun i => wordBytes (s.ctlPeek .alidade (8 * i)))
  let stores := cores.flatMap (fun c => s.bytesAt (coreWindow c) 0xC0000)
  let plates := cores.flatMap (fun c => (List.range nplates).flatMap (fun p =>
    let q := (s.core c).plate p
    if q.state = 0 then [] else q.image.flatMap wordBytes))
  let arrays := cores.flatMap (fun c =>
    let k := s.core c
    if (List.range 8).any (fun i => (k.aset (i + 1)).valid) then k.arrImage.flatMap wordBytes else [])
  ([(1, ident), (2, fault), (3, devreg), (4, states), (5, stores), (6, plates), (7, arrays), (8, lost.flatMap (fun a => bytesOf a 8))], s3)

/-- Where the sections go in `size` bytes: id, offset and body of those that fit; the ids of the others. -/
def dumpPlan (size : Nat) : Nat → List (Nat × List Byte) → List (Nat × Nat × List Byte) × List Nat
  | _, [] => ([], [])
  | off, (id, b) :: r =>
    if b = [] then dumpPlan size off r
    else if size < off + b.length then
      let (w, o) := dumpPlan size off r
      (w, id :: o)
    else
      let (w, o) := dumpPlan size ((off + b.length + 4095) / 4096 * 4096) r
      ((id, off, b) :: w, o)

/-- CRC of a section body. -/
def dumpCrc (b : List Byte) : Nat := (~~~ crc32c (BitVec.allOnes 32) b).toNat

/-- The header (R397) with a FORMAT. -/
def State.dumpHeader (s : State) (format reason : Nat) (w : List (Nat × Nat × List Byte)) (omitted : List Nat) : List Byte :=
  let total := w.foldl (fun n e => n + e.2.2.length) 4096
  let h := packBytes [(format, 4), (0x1000, 4), (total, 8), (w.length, 4), (omitted.foldl (fun m i => m + 2 ^ i) 0, 4)] ++ pairBytes s.tickCount ++
    packBytes [(s.fabId, 2), (s.impl, 2), (reason, 4)] ++ List.replicate 208 0#8 ++
    w.flatMap (fun e => packBytes [(e.1, 2), (0xFFFF, 2), (dumpCrc e.2.2, 4), (e.2.1, 4), (e.2.2.length, 4)])
  h ++ List.replicate (4096 - h.length) 0#8

/-- Bytes of the dump at an offset of its buffer: host memory, or the reserved region of GDDR7. -/
def State.dumpPut (s : State) (off : Nat) (b : List Byte) : State :=
  if s.ranas.dump.2 = 0 then s.memQuiet off b else s.emit (.hostWrite s.ranas.dump.1 off b)

/-- The dump: FORMAT zeroed first, the sections, the header with FORMAT last. -/
def State.writeDump (s : State) (reason : Nat) (lost : List Nat) : State :=
  let size := if s.ranas.dump.2 = 0 then 2 ^ 28 else s.ranas.dump.2
  let (secs, s1) := s.dumpSections lost
  let (w, omitted) := dumpPlan size 4096 secs
  let s2 := s1.dumpPut 0 (bytesOf 0 4)
  let s3 := w.foldl (fun t e => t.dumpPut e.2.1 e.2.2) s2
  let h := s3.dumpHeader 1 reason w omitted
  (s3.dumpPut 4 (h.drop 4)).dumpPut 0 (h.take 4)

/-- FATAL_ERROR: it is declared; then, once the M handlers have run or a tick later, the cores stop, the caches are written back but for the lines of failed banks, the dump is written and the error reported. -/
def execFatalError (reason code : Nat) (lost : List Nat) (s : State) : Out :=
  if reason = 0 ∨ 4 < reason ∨ s.ranasState = 3 then .next s
  else
    match s.ranas.fatal with
    | none => .next (s.fatalBegin reason code)
    | some (r, _, t) =>
      if s.now ≤ t ∧ s.coresQuiet = false then .next s
      else
        let s1 := (s.coresStop.flushCaches).writeDump r lost
        .next ((s1.setRanasState 3).hostEvent 0)

/-- POWER_FATAL: a limit beyond the throttle steps has been passed for its time: 0 input voltage, 1 input power, 2 die, 3 coolant inlet, with the code of the failing unit; the fatal error has reason 4. Input power above the maximum is fatal only at 470 MHz (R29, R447) (DEDUCED, log 57). -/
def execPowerFatal (why : Nat × Nat) (s : State) : Out :=
  .next (if s.ranasState = 3 ∨ 3 < why.1 ∨ (why.1 = 1 ∧ s.clockStep ≠ 2) then s else s.fatalBegin 4 why.2)

/-! ## Boot (R414) -/

/-- A bank that the boot ROM accepts. -/
def State.bootable (s : State) (n : Nat) : Bool :=
  let b := if n = 0 then s.ranas.bank0 else s.ranas.bank1
  b.valid && decide (s.ranas.fuseSvn ≤ b.svn)

/-- The bank that boots and whether it is on trial: the trial bank once, else the committed bank, else the other one. -/
def State.bootPick (s : State) : Option (Nat × Bool) :=
  let first := s.ranas.trial.getD s.ranas.committed
  if s.bootable first then some (first, s.ranas.trial.isSome)
  else if s.bootable (1 - first) then some (1 - first, false)
  else none

/-- RANAS_ID once STATE is READY (R401). -/
def State.ranasId (s : State) : Reg32 := BitVec.ofNat 32 (2 ^ 8 + s.impl * 2 ^ 16 + fld (idReg s.variant 0) 28 4 * 2 ^ 28)

/-- The cores after a boot: a core that failed its self-test is retired, the core monitor starts on the others (R436, R454). -/
def State.bootCores (s : State) (bad : List Nat) : State :=
  (List.range s.variant.cores).foldl (fun t c =>
    if t.isRetired c then t else if bad.contains c then t.retireCore c 2 else t.monitorBoot c) s

/-- Boot selection, the boot log entry, and READY; without a valid bank, or with GDDR7 untrained, RECOVERY (R405, R414, R436). -/
def State.boot (s : State) (bad untrained : List Nat) : State :=
  let pick := s.bootPick
  let s0 := s.modRanas (fun r => { r with trial := none, gddrBad := untrained })
  match pick with
  | none => ((s0.barSet 0x04 (BitVec.ofNat 32 (flag s0.ranas.token.isSome 6))).setRanasState 1).logAdd 0x0002 0xFFFF 1
  | some (b, tr) =>
    let s1 := s0.barSet 0x04 (BitVec.ofNat 32 (b * 2 ^ 4 + flag tr 5 + flag s0.ranas.token.isSome 6))
    let s2 := s1.logAdd 0x0001 b (s1.runBank.version + flag tr 32)
    if untrained.isEmpty then
      (((s2.bootCores bad).barSet 0 s2.ranasId).setRanasState 2).hostEvent 1
    else untrained.foldl (fun t d => t.logAdd 0x0002 d 2) (s2.setRanasState 1)

/-! ## Resets (R440, R441, R451) -/

/-- A memory key of GDDR7 or of a CXL expander. -/
def State.keptKey (s : State) (cxlOnly : Bool) (k : Nat) : Bool := decide (2 ^ 44 ≤ k) || (!cxlOnly && decide (k < s.variant.gddrEnd))

/-- The device with every item at its reset value except those that every reset keeps: fuses, flash, RETIRED flags, the log, expanders; `off` drops GDDR7 as well. -/
def State.resetDevice (s : State) (off : Bool) : State :=
  let spr := s.ctl.filter (fun e => decide (0x60700 ≤ e.1) && decide (e.1 < 0x61000))
  { variant := s.variant, pending := s.pending, retired := s.retired
    mem := s.mem.filter (fun e => s.keptKey off e.1)
    poison := s.poison.filter (fun e => s.keptKey off (e.1 * 64))
    ctl := spr
    cxlSlots := (match s.variant with | .m9440 => 12000 | .m9220 => 6000)
    cxlDown := s.cxlDown, log := s.log, freeCtr := s.freeCtr, out := s.out
    ranas := { bank0 := s.ranas.bank0, bank1 := s.ranas.bank1, committed := s.ranas.committed, trial := s.ranas.trial
               fuseSvn := s.ranas.fuseSvn, gddrBad := s.ranas.gddrBad, powered := s.ranas.powered, abrupt := s.ranas.abrupt } }

/-- HOST_LINK after training of some UCIe modules: the largest power of two that trained; fewer than fitted is degraded (R398). -/
def State.trainHost (s : State) (modules : Nat) : State :=
  let fitted := s.variant.dies
  let m := if fitted ≤ modules then fitted else if 2 ≤ modules then 2 else 1
  let s1 := s.barSet 0x10 (BitVec.ofNat 32 (m + flag (decide (m < fitted)) 3))
  if m < fitted then (s1.hostEvent 6).logAdd 0x0011 0xFFFF m else s1

/-- Physical positions of a die that its factory fuses leave out: its four spares (R21, R387). -/
def spares : List Nat := [48, 49, 50, 51]

/-- Spares of a die that `n` field repairs have left, in an order that is up to Alidade (DESIGN CHOICE, log 8). -/
def sparesAfter (die n : Nat) : List Nat :=
  (List.range n).foldl (fun l i => l.eraseIdx (Config.sparePick die i % l.length)) spares

/-- The field repairs of a cold reset: each retired core whose die has a spare is replaced by one that no repair has used (R387). -/
def State.fieldRepair (s : State) : State :=
  (List.range s.variant.cores).foldl (fun t c =>
    let d := 0x60700 + 8 * (c / 48)
    let p := 0x60800 + 8 * c
    if t.isRetired c = false ∨ t.ctlFld d 0 3 = 0 then t
    else
      let used := t.ctlFld d 3 3
      let left := sparesAfter (c / 48) used
      let t1 := (t.ctlPut d 0 3 (t.ctlFld d 0 3 - 1)).ctlPut d 3 3 (used + 1)
      let t2 := t1.ctlSet p (word (left.getD (Config.sparePick (c / 48) used % left.length) 0 + 64))
      { t2 with retired := Tbl.set false t2.retired c false }) s

/-- A cold reset without power-on: GDDR7 is kept and retrained, field repairs are applied, the debug token is cleared. -/
def State.coldReset (s : State) (bad untrained : List Nat) : State :=
  ((((s.flushCaches).resetDevice false).trainHost s.variant.dies).fieldRepair).boot bad untrained

/-- A warm reset: the host link, the config space and the debug token are kept as well. -/
def State.warmReset (s : State) (bad : List Nat) : State :=
  let t := s.flushCaches.resetDevice false
  let t1 : State := { t with msixCtl := s.msixCtl }
  let t2 := (t1.barSet 0x10 (setFld (s.barGet 0x10) 4 8 0)).modRanas (fun r => { r with token := s.ranas.token })
  t2.boot bad s.ranas.gddrBad

/-- The reset that MODULE_RESET asked for may begin: its result is written (R407). -/
def State.resetDue (s : State) (kind : Nat) : Bool := s.ranas.reset.1 == kind && !s.ranas.done.any (fun d => d.op == 0x0052)

/-- COLD_RESET: the one that MODULE_RESET KIND 2 asked for; the lists name cores that fail self-test and GDDR7 devices that fail training. -/
def execColdReset (bad untrained : List Nat) (s : State) : Out := .next (if s.resetDue 2 then s.coldReset bad untrained else s)

/-- WARM_RESET: the one that MODULE_RESET KIND 1 asked for. -/
def execWarmReset (bad : List Nat) (s : State) : Out := .next (if s.resetDue 1 then s.warmReset bad else s)

/-- ALIDADE_WATCHDOG_EXPIRY: a warm reset, or a cold one when it repeats within 1 s of a warm reset (R440). -/
def execAlidadeWatchdogExpiry (again : Bool) (bad untrained : List Nat) (s : State) : Out :=
  let t := s.logAdd 0x0010 0xFFFF 1
  .next (if again then t.coldReset bad untrained else t.warmReset bad)

/-- UCIE_CXL_LINK_RETRAINED: device state is kept; the retraining is counted and logged (R410, R443). -/
def execUcieCxlLinkRetrained (cxl : Bool) (index : Nat) (s : State) : Out :=
  let n := min (fld (s.barGet 0x10) 4 8 + 1) 255
  let s1 := s.barSet 0x10 (setFld (s.barGet 0x10) 4 8 n)
  .next (s1.logAdd 0x0013 ((if cxl then 0x200 else 0x100) + index % 256) n)

/-! ## Power (R434–R439) -/

/-- POWER_ON: the sequence to READY with GDDR7 filled with zeros; the lists name what fails self-test or training, `modules` the UCIe modules that trained. -/
def execPowerOn (bad untrained : List Nat) (modules : Nat) (s : State) : Out :=
  if s.ranas.powered then .next s
  else
    let t := (s.resetDevice true).modRanas (fun r => { r with powered := true, abrupt := none })
    let t1 := match s.ranas.abrupt with
      | some (u, c) => t.logAdd 0x0004 u c
      | none => t
    .next (((t1.trainHost modules).fieldRepair).boot bad untrained)

/-- The device without power: what survives is in fuses, flash and the log. -/
def State.unpowered (s : State) : State := (s.resetDevice true).modRanas (fun r => { r with powered := false, gddrBad := [] })

/-- POWER_OFF: the orderly sequence of R438: cores, channels and queues stop as for a rollback, the fabric is left, the caches are written back, the rails fall. -/
def execPowerOff (s : State) : Out :=
  if s.ranas.powered = false then .next s
  else
    let s1 := (s.tasksStop.dmaStopAll).ceStopAll (s.ctlFld 0x60008 5 16)
    .next ((s1.coresStop.fabFatal).flushCaches).unpowered

/-- ABRUPT_POWER_OFF: the rails drop at once; the cause, by unit and code, is kept for the log (R439, R410). -/
def execAbruptPowerOff (unit cause : Nat) (s : State) : Out :=
  if s.ranas.powered = false then .next s
  else .next (s.unpowered.modRanas (fun r => { r with abrupt := some (unit % 65536, cause % 256) }))

/-! ## Clock steps (R445, R446) -/

/-- The arithmetic clock changes its step: THROTTLE, the log, a PLDM event (DEDUCED, log 50). -/
def State.clockTo (s : State) (step reason : Nat) : State :=
  let s1 : State := { s with clockStep := step }
  let s2 := s1.modRanas (fun r => { r with throttle := if step = 0 then 0 else reason })
  ((s2.logAdd 0x000A 0xFFFF (s2.mhz + s2.ranas.throttle * 2 ^ 16)).hostEvent 7).emit (.pldmEvent 11 s2.mhz)

/-- THROTTLE_STEP_DOWN: a crossed limit requires a lower step: 1 is 705 MHz, 2 is 470 MHz; reason 1 power, 2 die, 3 inlet. Input power requires 470 MHz only while at 705 MHz (R29, R445). -/
def execThrottleStepDown (step reason : Nat) (s : State) : Out :=
  let lower := if reason = 1 then min step (s.clockStep + 1) else step
  .next (if s.clockStep < lower ∧ lower ≤ 2 ∧ 1 ≤ reason ∧ reason ≤ 3 then s.clockTo lower reason else s)

/-- THROTTLE_STEP_UP: every limit has stayed below its release level; `reason` is that of the step that is still required. -/
def execThrottleStepUp (step reason : Nat) (s : State) : Out :=
  .next (if step < s.clockStep ∧ (step = 0 ∨ (1 ≤ reason ∧ reason ≤ 3)) then s.clockTo step reason else s)

end Sys2Proof.Machine
end

