-- ==== Sys2Proof/Machine/Scalar.lean ====
section
/-!
DEFINITION. Scalar instructions that change only their core: moves, address pairs, arithmetic, logic, shifts, fixed point, bits, fields and CRC (R89–R98, R452).
-/
namespace Sys2Proof.Machine

/-- A scalar instruction that writes `d` with an `Alu` result. -/
def State.alu (s : State) (x : Issue) (h : Shape) (d : Reg) (f : Core → Alu) : State :=
  s.issueCore x h (fun k => k.putAlu d (f k))

/-- A scalar instruction that sets flags only. -/
def State.cmpOp (s : State) (x : Issue) (h : Shape) (f : Core → Cond) : State :=
  s.issueCore x h (fun k => k.putCond (f k))

/-- A scalar instruction that writes an a register. -/
def State.pairOp (s : State) (x : Issue) (h : Shape) (d : AReg) (f : Core → Pair) : State :=
  s.issueCore x h (fun k => k.setA d (f k))

/-! ## Moves and address pairs (R89, R93) -/

/-- NOP (R93). -/
def execNop (x : Issue) (s : State) : Out := .next (s.issueCore x (shOps 0) id)
/-- MOV: rd := rs (R93). -/
def execMov (x : Issue) (d a : Reg) (s : State) : Out := .next (s.alu x (shOps 2) d (fun k => aluMov (k.getW a)))
/-- LI: rd := imm (R89). -/
def execLi (x : Issue) (d : Reg) (i : Imm) (s : State) : Out := .next (s.alu x (shImm 1 i) d (fun _ => aluMov (immWord i)))
/-- LIA: ad := imm (R89). -/
def execLia (x : Issue) (d : AReg) (i : Imm) (s : State) : Out :=
  .next (s.pairOp x { shImm 1 i with limm := 2 } d (fun _ => immAddr i))
/-- MOVA: ad := as (R93). -/
def execMova (x : Issue) (d a : AReg) (s : State) : Out := .next (s.pairOp x (shOps 2) d (fun k => k.getA a))
/-- GETLO: rd := as[35:0] (R93). -/
def execGetlo (x : Issue) (d : Reg) (a : AReg) (s : State) : Out := .next (s.alu x (shOps 2) d (fun k => aluMov (lo36 (k.getA a))))
/-- GETHI: rd := as[71:36] (R93). -/
def execGethi (x : Issue) (d : Reg) (a : AReg) (s : State) : Out := .next (s.alu x (shOps 2) d (fun k => aluMov (hi36 (k.getA a))))
/-- SETLO: ad[35:0] := rs (R93). -/
def execSetlo (x : Issue) (d : AReg) (a : Reg) (s : State) : Out :=
  .next (s.pairOp x (shOps 2) d (fun k => mkPair (hi36 (k.getA d)) (k.getW a)))
/-- SETHI: ad[71:36] := rs (R93). -/
def execSethi (x : Issue) (d : AReg) (a : Reg) (s : State) : Out :=
  .next (s.pairOp x (shOps 2) d (fun k => mkPair (k.getW a) (lo36 (k.getA d))))
/-- ADDA: ad := as + sx(rs) mod 2^72 (R93). -/
def execAdda (x : Issue) (d a : AReg) (r : Reg) (s : State) : Out :=
  .next (s.pairOp x (shOps 3) d (fun k => k.getA a + (k.getW r).signExtend 72))
/-- ADDAI: ad := as + imm mod 2^72 (R93). -/
def execAddai (x : Issue) (d a : AReg) (i : Imm) (s : State) : Out :=
  .next (s.pairOp x { shImm 2 i with limm := 2 } d (fun k => k.getA a + immAddr i))
/-- The flags of CMPA: a 72-bit unsigned compare, N and V cleared (R93). -/
def cmpaCond (a b : Pair) : Cond := { z := some (a = b), n := some false, c := some (decide (b.toNat ≤ a.toNat)), v := some false }
/-- CMPA (R93). -/
def execCmpa (x : Issue) (a b : AReg) (s : State) : Out :=
  .next (s.cmpOp x (shOps 2) (fun k => cmpaCond (k.getA a) (k.getA b)))

/-! ## Addition and subtraction (R91, R95) -/

/-- A sum or difference with its flags as a scalar result. -/
def aluOf (r : Word × Cond) : Alu := { val := r.1, cond := r.2 }

/-- ADD (R91, R95). -/
def execAdd (x : Issue) (d a b : Reg) (s : State) : Out := .next (s.alu x (shHalf 3) d (fun k => aluAdd x (k.getW a) (k.getW b)))
/-- ADDC: rs1 + rs2 + C (R91). -/
def execAddc (x : Issue) (d a b : Reg) (s : State) : Out :=
  .next (s.alu x (shOps 3) d (fun k => aluOf (addW (k.getW a) (k.getW b) k.cf)))
/-- SUB (R91, R95). -/
def execSub (x : Issue) (d a b : Reg) (s : State) : Out := .next (s.alu x (shHalf 3) d (fun k => aluSub x (k.getW a) (k.getW b)))
/-- SUBB: rs1 − rs2 − (1 − C) (R91). -/
def execSubb (x : Issue) (d a b : Reg) (s : State) : Out :=
  .next (s.alu x (shOps 3) d (fun k => aluOf (subW (k.getW a) (k.getW b) (!k.cf))))
/-- ADDI (R91). -/
def execAddi (x : Issue) (d a : Reg) (i : Imm) (s : State) : Out :=
  .next (s.alu x (shImm 2 i) d (fun k => aluOf (addW (k.getW a) (immWord i) false)))
/-- NEG: 0 − rs (R91). -/
def execNeg (x : Issue) (d a : Reg) (s : State) : Out := .next (s.alu x (shOps 2) d (fun k => aluOf (subW 0#36 (k.getW a) false)))
/-- CMP (R91, R95). -/
def execCmp (x : Issue) (a b : Reg) (s : State) : Out :=
  .next (s.cmpOp x (shHalf 2) (fun k => (aluSub x (k.getW a) (k.getW b)).cond))
/-- CMPI (R91). -/
def execCmpi (x : Issue) (a : Reg) (i : Imm) (s : State) : Out :=
  .next (s.cmpOp x (shImm 1 i) (fun k => (subW (k.getW a) (immWord i) false).2))

/-! ## Logic (R93) -/

/-- AND. -/
def execAnd (x : Issue) (d a b : Reg) (s : State) : Out := .next (s.alu x (shOps 3) d (fun k => aluLogic (k.getW a &&& k.getW b)))
/-- OR. -/
def execOr (x : Issue) (d a b : Reg) (s : State) : Out := .next (s.alu x (shOps 3) d (fun k => aluLogic (k.getW a ||| k.getW b)))
/-- XOR. -/
def execXor (x : Issue) (d a b : Reg) (s : State) : Out := .next (s.alu x (shOps 3) d (fun k => aluLogic (k.getW a ^^^ k.getW b)))
/-- ANDN: rs1 and not rs2. -/
def execAndn (x : Issue) (d a b : Reg) (s : State) : Out := .next (s.alu x (shOps 3) d (fun k => aluLogic (k.getW a &&& ~~~ k.getW b)))
/-- NOT. -/
def execNot (x : Issue) (d a : Reg) (s : State) : Out := .next (s.alu x (shOps 2) d (fun k => aluLogic (~~~ k.getW a)))
/-- ANDI. -/
def execAndi (x : Issue) (d a : Reg) (i : Imm) (s : State) : Out := .next (s.alu x (shImm 2 i) d (fun k => aluLogic (k.getW a &&& immWord i)))
/-- ORI. -/
def execOri (x : Issue) (d a : Reg) (i : Imm) (s : State) : Out := .next (s.alu x (shImm 2 i) d (fun k => aluLogic (k.getW a ||| immWord i)))
/-- XORI. -/
def execXori (x : Issue) (d a : Reg) (i : Imm) (s : State) : Out := .next (s.alu x (shImm 2 i) d (fun k => aluLogic (k.getW a ^^^ immWord i)))

/-! ## Shifts and rotates (R94) -/

/-- SHL. -/
def execShl (x : Issue) (d a b : Reg) (s : State) : Out := .next (s.alu x (shOps 3) d (fun k => aluShl (k.getW a) (shAmt (k.getW b))))
/-- SHR. -/
def execShr (x : Issue) (d a b : Reg) (s : State) : Out := .next (s.alu x (shOps 3) d (fun k => aluShr (k.getW a) (shAmt (k.getW b))))
/-- SAR. -/
def execSar (x : Issue) (d a b : Reg) (s : State) : Out := .next (s.alu x (shOps 3) d (fun k => aluSar (k.getW a) (shAmt (k.getW b))))
/-- ROL. -/
def execRol (x : Issue) (d a b : Reg) (s : State) : Out := .next (s.alu x (shOps 3) d (fun k => aluRol (k.getW a) (shAmt (k.getW b))))
/-- ROR. -/
def execRor (x : Issue) (d a b : Reg) (s : State) : Out := .next (s.alu x (shOps 3) d (fun k => aluRor (k.getW a) (shAmt (k.getW b))))
/-- SHLI. -/
def execShli (x : Issue) (d a : Reg) (n : Byte) (s : State) : Out := .next (s.alu x (shRB n 0 35) d (fun k => aluShl (k.getW a) n.toNat))
/-- SHRI. -/
def execShri (x : Issue) (d a : Reg) (n : Byte) (s : State) : Out := .next (s.alu x (shRB n 0 35) d (fun k => aluShr (k.getW a) n.toNat))
/-- SARI. -/
def execSari (x : Issue) (d a : Reg) (n : Byte) (s : State) : Out := .next (s.alu x (shRB n 0 35) d (fun k => aluSar (k.getW a) n.toNat))
/-- ROLI. -/
def execRoli (x : Issue) (d a : Reg) (n : Byte) (s : State) : Out := .next (s.alu x (shRB n 0 35) d (fun k => aluRol (k.getW a) n.toNat))
/-- RORI. -/
def execRori (x : Issue) (d a : Reg) (n : Byte) (s : State) : Out := .next (s.alu x (shRB n 0 35) d (fun k => aluRor (k.getW a) n.toNat))

/-! ## Fixed point (R95, R96) -/

/-- ADDS. -/
def execAdds (x : Issue) (d a b : Reg) (s : State) : Out := .next (s.alu x (shHalf 3) d (fun k => aluAdds x (k.getW a) (k.getW b)))
/-- SUBS. -/
def execSubs (x : Issue) (d a b : Reg) (s : State) : Out := .next (s.alu x (shHalf 3) d (fun k => aluSubs x (k.getW a) (k.getW b)))
/-- ADDUS. -/
def execAddus (x : Issue) (d a b : Reg) (s : State) : Out := .next (s.alu x (shOps 3) d (fun k => aluAddus (k.getW a) (k.getW b)))
/-- SUBUS. -/
def execSubus (x : Issue) (d a b : Reg) (s : State) : Out := .next (s.alu x (shOps 3) d (fun k => aluSubus (k.getW a) (k.getW b)))
/-- SARR. -/
def execSarr (x : Issue) (d a : Reg) (n : Byte) (s : State) : Out :=
  .next (s.alu x { shRB n 0 35 with fws := [1] } d (fun k => aluSarr x (k.getW a) n.toNat))
/-- SATN. -/
def execSatn (x : Issue) (d a : Reg) (n : Byte) (s : State) : Out := .next (s.alu x (shRB n 1 35) d (fun k => aluSatn (k.getW a) n.toNat))
/-- SATUN. -/
def execSatun (x : Issue) (d a : Reg) (n : Byte) (s : State) : Out := .next (s.alu x (shRB n 1 35) d (fun k => aluSatun (k.getW a) n.toNat))
/-- ABS. -/
def execAbs (x : Issue) (d a : Reg) (s : State) : Out := .next (s.alu x (shOps 2) d (fun k => aluAbs (k.getW a)))
/-- MIN. -/
def execMin (x : Issue) (d a b : Reg) (s : State) : Out := .next (s.alu x (shHalf 3) d (fun k => aluMin x (k.getW a) (k.getW b)))
/-- MAX. -/
def execMax (x : Issue) (d a b : Reg) (s : State) : Out := .next (s.alu x (shHalf 3) d (fun k => aluMax x (k.getW a) (k.getW b)))
/-- MINU. -/
def execMinu (x : Issue) (d a b : Reg) (s : State) : Out := .next (s.alu x (shOps 3) d (fun k => aluMinu (k.getW a) (k.getW b)))
/-- MAXU. -/
def execMaxu (x : Issue) (d a b : Reg) (s : State) : Out := .next (s.alu x (shOps 3) d (fun k => aluMaxu (k.getW a) (k.getW b)))

/-! ## Bits (R93, R97) -/

/-- CLZ. -/
def execClz (x : Issue) (d a : Reg) (s : State) : Out := .next (s.alu x (shOps 2) d (fun k => aluZ (word (clz (k.getW a)))))
/-- CTZ. -/
def execCtz (x : Issue) (d a : Reg) (s : State) : Out := .next (s.alu x (shOps 2) d (fun k => aluZ (word (ctz (k.getW a)))))
/-- POPC. -/
def execPopc (x : Issue) (d a : Reg) (s : State) : Out := .next (s.alu x (shOps 2) d (fun k => aluZ (word (popcount (k.getW a)))))
/-- PAR36. -/
def execPar36 (x : Issue) (d a : Reg) (s : State) : Out := .next (s.alu x (shOps 2) d (fun k => aluZ (word (parity (k.getW a)).toNat)))
/-- Parity of each halfword in bits 0 and 1. -/
def par18 (w : Word) : Word := word ((parity (w.extractLsb' 0 18)).toNat + 2 * (parity (w.extractLsb' 18 18)).toNat)
/-- PAR18. -/
def execPar18 (x : Issue) (d a : Reg) (s : State) : Out := .next (s.alu x (shOps 2) d (fun k => aluZ (par18 (k.getW a))))
/-- BREV36. -/
def execBrev36 (x : Issue) (d a : Reg) (s : State) : Out := .next (s.alu x (shOps 2) d (fun k => aluMov (bitRev (k.getW a))))
/-- Each halfword reversed in place. -/
def brev18 (w : Word) : Word := bitRev (w.extractLsb' 18 18) ++ bitRev (w.extractLsb' 0 18)
/-- BREV18. -/
def execBrev18 (x : Issue) (d a : Reg) (s : State) : Out := .next (s.alu x (shOps 2) d (fun k => aluMov (brev18 (k.getW a))))
/-- The bits within each byte of [31:0] reversed; [35:32] unchanged. -/
def brev8 (w : Word) : Word :=
  ((((w.extractLsb' 32 4 ++ bitRev (w.extractLsb' 24 8)) ++ bitRev (w.extractLsb' 16 8)) ++ bitRev (w.extractLsb' 8 8)) ++ bitRev (w.extractLsb' 0 8))
/-- BREV8. -/
def execBrev8 (x : Issue) (d a : Reg) (s : State) : Out := .next (s.alu x (shOps 2) d (fun k => aluMov (brev8 (k.getW a))))
/-- EXT (R452). -/
def execExt (x : Issue) (d a : Reg) (pos len : Byte) (s : State) : Out :=
  .next (s.alu x (shRBB pos len) d (fun k => extract true (k.getW a) pos.toNat len.toNat))
/-- EXTU (R452). -/
def execExtu (x : Issue) (d a : Reg) (pos len : Byte) (s : State) : Out :=
  .next (s.alu x (shRBB pos len) d (fun k => extract false (k.getW a) pos.toNat len.toNat))
/-- INS: rd[pos+len−1 : pos] := rs[len−1 : 0] (R452). -/
def execIns (x : Issue) (d a : Reg) (pos len : Byte) (s : State) : Out :=
  .next (s.alu x (shRBB pos len) d (fun k => aluMov (setFld (k.getW d) pos.toNat len.toNat (k.getW a).toNat)))
/-- SEXT18. -/
def execSext18 (x : Issue) (d a : Reg) (s : State) : Out := .next (s.alu x (shOps 2) d (fun k => aluMov (((k.getW a).setWidth 18).signExtend 36)))
/-- SEXT8. -/
def execSext8 (x : Issue) (d a : Reg) (s : State) : Out := .next (s.alu x (shOps 2) d (fun k => aluMov (((k.getW a).setWidth 8).signExtend 36)))

/-! ## CRC (R98) -/

/-- The CRC-32C state in rd after `n` bytes of rs. -/
def crc32Step (st data : Word) (n : Nat) : Word := (crc32c (st.setWidth 32) (bytesOf data.toNat n)).setWidth 36
/-- The CRC-16/CCITT state in rd after `n` bytes of rs. -/
def crc16Step (st data : Word) (n : Nat) : Word := (crc16 (st.setWidth 16) (bytesOf data.toNat n)).setWidth 36

/-- CRC32C.B. -/
def execCrc32cB (x : Issue) (d a : Reg) (s : State) : Out := .next (s.alu x (shOps 2) d (fun k => aluMov (crc32Step (k.getW d) (k.getW a) 1)))
/-- CRC32C.W. -/
def execCrc32cW (x : Issue) (d a : Reg) (s : State) : Out := .next (s.alu x (shOps 2) d (fun k => aluMov (crc32Step (k.getW d) (k.getW a) 4)))
/-- CRC16.B. -/
def execCrc16B (x : Issue) (d a : Reg) (s : State) : Out := .next (s.alu x (shOps 2) d (fun k => aluMov (crc16Step (k.getW d) (k.getW a) 1)))
/-- CRC16.W. -/
def execCrc16W (x : Issue) (d a : Reg) (s : State) : Out := .next (s.alu x (shOps 2) d (fun k => aluMov (crc16Step (k.getW d) (k.getW a) 2)))

end Sys2Proof.Machine
end

