-- ==== Sys2Proof/Machine/Dispatch.lean ====
section
/-!
DEFINITION. One arm per command: each calls its own meaning. The meanings act on everything but the queue.
-/
namespace Sys2Proof.Machine

def exec (i : Instr) (s : State) : Host.Outcome State Fault Refusal :=
  match i with
  | .tick => Sys2Proof.Machine.execTick s
  | .holdoverExpiry => Sys2Proof.Machine.execHoldoverExpiry s
  | .tickSync n skew master depth period ann => Sys2Proof.Machine.execTickSync n skew master depth period ann s
  | .periodSwitch at_ => Sys2Proof.Machine.execPeriodSwitch at_ s
  | .tickModeChange => Sys2Proof.Machine.execTickModeChange s
  | .tickCtrlWrite by_ which v => Sys2Proof.Machine.execTickCtrlWrite by_ which v s
  | .tickSwitchAtWrite by_ v => Sys2Proof.Machine.execTickSwitchAtWrite by_ v s
  | .tickCountLoRead by_ => Sys2Proof.Machine.execTickCountLoRead by_ s
  | .scheduleStartAtTick => Sys2Proof.Machine.execScheduleStartAtTick s
  | .scheduleStopAtTick => Sys2Proof.Machine.execScheduleStopAtTick s
  | .frameTaskStart c => Sys2Proof.Machine.execFrameTaskStart c s
  | .deferredServe c ns => Sys2Proof.Machine.execDeferredServe c ns s
  | .slotStart p unit => Sys2Proof.Machine.execSlotStart p unit s
  | .slotEnd p => Sys2Proof.Machine.execSlotEnd p s
  | .exceptionEntry c => Sys2Proof.Machine.execExceptionEntry c s
  | .deferredErrorReport c mem access n dkind dreg acc => Sys2Proof.Machine.execDeferredErrorReport c mem access n dkind dreg acc s
  | .mulResultLand c => Sys2Proof.Machine.execMulResultLand c s
  | .divResultLand c => Sys2Proof.Machine.execDivResultLand c s
  | .nop x => Sys2Proof.Machine.execNop x s
  | .mov x d s1 => Sys2Proof.Machine.execMov x d s1 s
  | .li x d im => Sys2Proof.Machine.execLi x d im s
  | .lia x d im => Sys2Proof.Machine.execLia x d im s
  | .mova x d s1 => Sys2Proof.Machine.execMova x d s1 s
  | .getlo x d s1 => Sys2Proof.Machine.execGetlo x d s1 s
  | .gethi x d s1 => Sys2Proof.Machine.execGethi x d s1 s
  | .setlo x d s1 => Sys2Proof.Machine.execSetlo x d s1 s
  | .sethi x d s1 => Sys2Proof.Machine.execSethi x d s1 s
  | .adda x d s1 r => Sys2Proof.Machine.execAdda x d s1 r s
  | .addai x d s1 im => Sys2Proof.Machine.execAddai x d s1 im s
  | .cmpa x s1 t => Sys2Proof.Machine.execCmpa x s1 t s
  | .add x d a b => Sys2Proof.Machine.execAdd x d a b s
  | .addc x d a b => Sys2Proof.Machine.execAddc x d a b s
  | .sub x d a b => Sys2Proof.Machine.execSub x d a b s
  | .subb x d a b => Sys2Proof.Machine.execSubb x d a b s
  | .addi x d a im => Sys2Proof.Machine.execAddi x d a im s
  | .neg x d a => Sys2Proof.Machine.execNeg x d a s
  | .cmp x a b => Sys2Proof.Machine.execCmp x a b s
  | .cmpi x a im => Sys2Proof.Machine.execCmpi x a im s
  | .and_ x d a b => Sys2Proof.Machine.execAnd x d a b s
  | .or_ x d a b => Sys2Proof.Machine.execOr x d a b s
  | .xor_ x d a b => Sys2Proof.Machine.execXor x d a b s
  | .andn x d a b => Sys2Proof.Machine.execAndn x d a b s
  | .not_ x d a => Sys2Proof.Machine.execNot x d a s
  | .andi x d a im => Sys2Proof.Machine.execAndi x d a im s
  | .ori x d a im => Sys2Proof.Machine.execOri x d a im s
  | .xori x d a im => Sys2Proof.Machine.execXori x d a im s
  | .shl x d a b => Sys2Proof.Machine.execShl x d a b s
  | .shr x d a b => Sys2Proof.Machine.execShr x d a b s
  | .sar x d a b => Sys2Proof.Machine.execSar x d a b s
  | .rol x d a b => Sys2Proof.Machine.execRol x d a b s
  | .ror x d a b => Sys2Proof.Machine.execRor x d a b s
  | .shli x d a n => Sys2Proof.Machine.execShli x d a n s
  | .shri x d a n => Sys2Proof.Machine.execShri x d a n s
  | .sari x d a n => Sys2Proof.Machine.execSari x d a n s
  | .roli x d a n => Sys2Proof.Machine.execRoli x d a n s
  | .rori x d a n => Sys2Proof.Machine.execRori x d a n s
  | .adds x d a b => Sys2Proof.Machine.execAdds x d a b s
  | .subs x d a b => Sys2Proof.Machine.execSubs x d a b s
  | .addus x d a b => Sys2Proof.Machine.execAddus x d a b s
  | .subus x d a b => Sys2Proof.Machine.execSubus x d a b s
  | .sarr x d a n => Sys2Proof.Machine.execSarr x d a n s
  | .satn x d a n => Sys2Proof.Machine.execSatn x d a n s
  | .satun x d a n => Sys2Proof.Machine.execSatun x d a n s
  | .abs x d a => Sys2Proof.Machine.execAbs x d a s
  | .min x d a b => Sys2Proof.Machine.execMin x d a b s
  | .max x d a b => Sys2Proof.Machine.execMax x d a b s
  | .minu x d a b => Sys2Proof.Machine.execMinu x d a b s
  | .maxu x d a b => Sys2Proof.Machine.execMaxu x d a b s
  | .clz x d a => Sys2Proof.Machine.execClz x d a s
  | .ctz x d a => Sys2Proof.Machine.execCtz x d a s
  | .popc x d a => Sys2Proof.Machine.execPopc x d a s
  | .par36 x d a => Sys2Proof.Machine.execPar36 x d a s
  | .par18 x d a => Sys2Proof.Machine.execPar18 x d a s
  | .brev36 x d a => Sys2Proof.Machine.execBrev36 x d a s
  | .brev18 x d a => Sys2Proof.Machine.execBrev18 x d a s
  | .brev8 x d a => Sys2Proof.Machine.execBrev8 x d a s
  | .ext x d a pos len => Sys2Proof.Machine.execExt x d a pos len s
  | .extu x d a pos len => Sys2Proof.Machine.execExtu x d a pos len s
  | .ins x d a pos len => Sys2Proof.Machine.execIns x d a pos len s
  | .sext18 x d a => Sys2Proof.Machine.execSext18 x d a s
  | .sext8 x d a => Sys2Proof.Machine.execSext8 x d a s
  | .crc32cB x d a => Sys2Proof.Machine.execCrc32cB x d a s
  | .crc32cW x d a => Sys2Proof.Machine.execCrc32cW x d a s
  | .crc16B x d a => Sys2Proof.Machine.execCrc16B x d a s
  | .crc16W x d a => Sys2Proof.Machine.execCrc16W x d a s
  | .ldw x d s1 im => Sys2Proof.Machine.execLdw x d s1 im s
  | .ldh x d s1 im => Sys2Proof.Machine.execLdh x d s1 im s
  | .ldhu x d s1 im => Sys2Proof.Machine.execLdhu x d s1 im s
  | .ldb x d s1 im => Sys2Proof.Machine.execLdb x d s1 im s
  | .ldbs x d s1 im => Sys2Proof.Machine.execLdbs x d s1 im s
  | .stw x d s1 im => Sys2Proof.Machine.execStw x d s1 im s
  | .sth x d s1 im => Sys2Proof.Machine.execSth x d s1 im s
  | .stb x d s1 im => Sys2Proof.Machine.execStb x d s1 im s
  | .lda x d s1 im => Sys2Proof.Machine.execLda x d s1 im s
  | .sta x d s1 im => Sys2Proof.Machine.execSta x d s1 im s
  | .ldwx x d s1 r => Sys2Proof.Machine.execLdwx x d s1 r s
  | .stwx x d s1 r => Sys2Proof.Machine.execStwx x d s1 r s
  | .push x r => Sys2Proof.Machine.execPush x r s
  | .pop x r => Sys2Proof.Machine.execPop x r s
  | .pusha x r => Sys2Proof.Machine.execPusha x r s
  | .popa x r => Sys2Proof.Machine.execPopa x r s
  | .amoadd x d s1 r => Sys2Proof.Machine.execAmoadd x d s1 r s
  | .amoswap x d s1 r => Sys2Proof.Machine.execAmoswap x d s1 r s
  | .cas x d s1 r => Sys2Proof.Machine.execCas x d s1 r s
  | .mul x a b => Sys2Proof.Machine.execMul x a b s
  | .mulu x a b => Sys2Proof.Machine.execMulu x a b s
  | .div x a b => Sys2Proof.Machine.execDiv x a b s
  | .divu x a b => Sys2Proof.Machine.execDivu x a b s
  | .rdmpl x d => Sys2Proof.Machine.execRdmpl x d s
  | .rdmph x d => Sys2Proof.Machine.execRdmph x d s
  | .rdmq x d => Sys2Proof.Machine.execRdmq x d s
  | .rdmrem x d => Sys2Proof.Machine.execRdmrem x d s
  | .wrmpl x s1 => Sys2Proof.Machine.execWrmpl x s1 s
  | .wrmph x s1 => Sys2Proof.Machine.execWrmph x s1 s
  | .wrmq x s1 => Sys2Proof.Machine.execWrmq x s1 s
  | .wrmrem x s1 => Sys2Proof.Machine.execWrmrem x s1 s
  | .b x im => Sys2Proof.Machine.execB x im s
  | .bc x cond im => Sys2Proof.Machine.execBc x cond im s
  | .br x s1 => Sys2Proof.Machine.execBr x s1 s
  | .call x im => Sys2Proof.Machine.execCall x im s
  | .callr x s1 => Sys2Proof.Machine.execCallr x s1 s
  | .ret x => Sys2Proof.Machine.execRet x s
  | .cbz x s1 im => Sys2Proof.Machine.execCbz x s1 im s
  | .cbnz x s1 im => Sys2Proof.Machine.execCbnz x s1 im s
  | .eret x => Sys2Proof.Machine.execEret x s
  | .brk x => Sys2Proof.Machine.execBrk x s
  | .waite x => Sys2Proof.Machine.execWaite x s
  | .rdpsw x d => Sys2Proof.Machine.execRdpsw x d s
  | .wrpsw x s1 => Sys2Proof.Machine.execWrpsw x s1 s
  | .rdaf x d => Sys2Proof.Machine.execRdaf x d s
  | .wraf x s1 => Sys2Proof.Machine.execWraf x s1 s
  | .rdamax x d p => Sys2Proof.Machine.execRdamax x d p s
  | .rdcsp x d => Sys2Proof.Machine.execRdcsp x d s
  | .wrcsp x s1 => Sys2Proof.Machine.execWrcsp x s1 s
  | .rdafp x d => Sys2Proof.Machine.execRdafp x d s
  | .wrafp x s1 => Sys2Proof.Machine.execWrafp x s1 s
  | .fence x k => Sys2Proof.Machine.execFence x k s
  | .xinvAll x => Sys2Proof.Machine.execXinvAll x s
  | .xinv x s1 => Sys2Proof.Machine.execXinv x s1 s
  | .fdone x => Sys2Proof.Machine.execFdone x s
  | .rdm x d n => Sys2Proof.Machine.execRdm x d n s
  | .wrm x n s1 => Sys2Proof.Machine.execWrm x n s1 s
  | .vadd x d a b => Sys2Proof.Machine.execVadd x d a b s
  | .vsub x d a b => Sys2Proof.Machine.execVsub x d a b s
  | .vmul x d a b => Sys2Proof.Machine.execVmul x d a b s
  | .vfma x d a b => Sys2Proof.Machine.execVfma x d a b s
  | .vfnma x d a b => Sys2Proof.Machine.execVfnma x d a b s
  | .vmin x d a b => Sys2Proof.Machine.execVmin x d a b s
  | .vmax x d a b => Sys2Proof.Machine.execVmax x d a b s
  | .vabs x d a => Sys2Proof.Machine.execVabs x d a s
  | .vneg x d a => Sys2Proof.Machine.execVneg x d a s
  | .vdiv x d a b => Sys2Proof.Machine.execVdiv x d a b s
  | .vsqrt x d a => Sys2Proof.Machine.execVsqrt x d a s
  | .vadds x d a b => Sys2Proof.Machine.execVadds x d a b s
  | .vsubs x d a b => Sys2Proof.Machine.execVsubs x d a b s
  | .vmulq x d a b n => Sys2Proof.Machine.execVmulq x d a b n s
  | .vsarr x d a n => Sys2Proof.Machine.execVsarr x d a n s
  | .vsat x d a n => Sys2Proof.Machine.execVsat x d a n s
  | .vand x d a b => Sys2Proof.Machine.execVand x d a b s
  | .vor x d a b => Sys2Proof.Machine.execVor x d a b s
  | .vxor x d a b => Sys2Proof.Machine.execVxor x d a b s
  | .vandn x d a b => Sys2Proof.Machine.execVandn x d a b s
  | .vnot x d a => Sys2Proof.Machine.execVnot x d a s
  | .vshl x d a n => Sys2Proof.Machine.execVshl x d a n s
  | .vshr x d a n => Sys2Proof.Machine.execVshr x d a n s
  | .vsar x d a n => Sys2Proof.Machine.execVsar x d a n s
  | .vmov x d a => Sys2Proof.Machine.execVmov x d a s
  | .vbcast x d s1 => Sys2Proof.Machine.execVbcast x d s1 s
  | .vins x d s1 l => Sys2Proof.Machine.execVins x d s1 l s
  | .vext x d a l => Sys2Proof.Machine.execVext x d a l s
  | .viota x d => Sys2Proof.Machine.execViota x d s
  | .vcmp x d a b c1 => Sys2Proof.Machine.execVcmp x d a b c1 s
  | .vsel x d a b m => Sys2Proof.Machine.execVsel x d a b m s
  | .mand x d a b => Sys2Proof.Machine.execMand x d a b s
  | .mor x d a b => Sys2Proof.Machine.execMor x d a b s
  | .mxor x d a b => Sys2Proof.Machine.execMxor x d a b s
  | .mnot x d a => Sys2Proof.Machine.execMnot x d a s
  | .mpopc x d a => Sys2Proof.Machine.execMpopc x d a s
  | .mfirst x d a => Sys2Proof.Machine.execMfirst x d a s
  | .mtow x d a h => Sys2Proof.Machine.execMtow x d a h s
  | .mfromw x d s1 h => Sys2Proof.Machine.execMfromw x d s1 h s
  | .vcvtw x d a c1 c2 s1 => Sys2Proof.Machine.execVcvtw x d a c1 c2 s1 s
  | .vcvtn x d a c1 c2 s1 => Sys2Proof.Machine.execVcvtn x d a c1 c2 s1 s
  | .vmxq x d wd a c1 c2 => Sys2Proof.Machine.execVmxq x d wd a c1 c2 s
  | .vschoose x d s1 c1 c3 => Sys2Proof.Machine.execVschoose x d s1 c1 c3 s
  | .vrsum x d a => Sys2Proof.Machine.execVrsum x d a s
  | .vrmax x d a => Sys2Proof.Machine.execVrmax x d a s
  | .vrmin x d a => Sys2Proof.Machine.execVrmin x d a s
  | .vscan x d a => Sys2Proof.Machine.execVscan x d a s
  | .vperm x d a im => Sys2Proof.Machine.execVperm x d a im s
  | .vperm2 x d a b im => Sys2Proof.Machine.execVperm2 x d a b im s
  | .vslideup x d a s1 => Sys2Proof.Machine.execVslideup x d a s1 s
  | .vslidedn x d a s1 => Sys2Proof.Machine.execVslidedn x d a s1 s
  | .vcompress x d a m => Sys2Proof.Machine.execVcompress x d a m s
  | .vrcp x d a => Sys2Proof.Machine.execVrcp x d a s
  | .vrsqrt x d a => Sys2Proof.Machine.execVrsqrt x d a s
  | .vexp2 x d a => Sys2Proof.Machine.execVexp2 x d a s
  | .vlog2 x d a => Sys2Proof.Machine.execVlog2 x d a s
  | .vld x d s1 im => Sys2Proof.Machine.execVld x d s1 im s
  | .vst x d s1 im => Sys2Proof.Machine.execVst x d s1 im s
  | .vlds x d s1 r => Sys2Proof.Machine.execVlds x d s1 r s
  | .vsts x d s1 r => Sys2Proof.Machine.execVsts x d s1 r s
  | .vldn x d s1 im c1 => Sys2Proof.Machine.execVldn x d s1 im c1 s
  | .vstn x d s1 im c1 => Sys2Proof.Machine.execVstn x d s1 im c1 s
  | .vgather x d s1 im => Sys2Proof.Machine.execVgather x d s1 im s
  | .vscatter x d s1 im => Sys2Proof.Machine.execVscatter x d s1 im s
  | .plcfg x p s1 => Sys2Proof.Machine.execPlcfg x p s1 s
  | .plget x d p sel => Sys2Proof.Machine.execPlget x d p sel s
  | .plrel x p => Sys2Proof.Machine.execPlrel x p s
  | .plrelm x s1 => Sys2Proof.Machine.execPlrelm x s1 s
  | .plclrf x p => Sys2Proof.Machine.execPlclrf x p s
  | .pld x p s1 r => Sys2Proof.Machine.execPld x p s1 r s
  | .pldRowWrite c => Sys2Proof.Machine.execPldRowWrite c s
  | .pst x p s1 r => Sys2Proof.Machine.execPst x p s1 r s
  | .plsv x p s1 => Sys2Proof.Machine.execPlsv x p s1 s
  | .plrs x p s1 => Sys2Proof.Machine.execPlrs x p s1 s
  | .plcvt x d a c2 s1 => Sys2Proof.Machine.execPlcvt x d a c2 s1 s
  | .plmxq x d e a c2 => Sys2Proof.Machine.execPlmxq x d e a c2 s
  | .plmvr x d p r => Sys2Proof.Machine.execPlmvr x d p r s
  | .plmrv x p a r => Sys2Proof.Machine.execPlmrv x p a r s
  | .arlds x p c => Sys2Proof.Machine.execArlds x p c s
  | .arldsx x p e c => Sys2Proof.Machine.execArldsx x p e c s
  | .arldsp x p m c => Sys2Proof.Machine.execArldsp x p m c s
  | .stationaryLoadComplete c => Sys2Proof.Machine.execStationaryLoadComplete c s
  | .mma x p a s1 => Sys2Proof.Machine.execMma x p a s1 s
  | .mmax x p a e s1 => Sys2Proof.Machine.execMmax x p a e s1 s
  | .mmacv x p a s1 g k => Sys2Proof.Machine.execMmacv x p a s1 g k s
  | .passComplete c => Sys2Proof.Machine.execPassComplete c s
  | .arget x d sel => Sys2Proof.Machine.execArget x d sel s
  | .arset x s1 => Sys2Proof.Machine.execArset x s1 s
  | .arinv x mask => Sys2Proof.Machine.execArinv x mask s
  | .arsv x s1 => Sys2Proof.Machine.execArsv x s1 s
  | .arrs x s1 => Sys2Proof.Machine.execArrs x s1 s
  | .requestAdmit agent pa write by_ => Sys2Proof.Machine.execRequestAdmit agent pa write by_ s
  | .memoryRequestComplete agent pa write det bank => Sys2Proof.Machine.execMemoryRequestComplete agent pa write det bank s
  | .gddr7Refresh g reports => Sys2Proof.Machine.execGddr7Refresh g reports s
  | .tcOpGo by_ die v => Sys2Proof.Machine.execTcOpGo by_ die v s
  | .tcOpDone die bad => Sys2Proof.Machine.execTcOpDone die bad s
  | .remoteRequest f r => Sys2Proof.Machine.execRemoteRequest f r s
  | .remoteTimeoutExpiry c => Sys2Proof.Machine.execRemoteTimeoutExpiry c s
  | .semCountUpdate by_ im op v e => Sys2Proof.Machine.execSemCountUpdate by_ im op v e s
  | .cmbxPost by_ n k v => Sys2Proof.Machine.execCmbxPost by_ n k v s
  | .arbitrationDecision im heads => Sys2Proof.Machine.execArbitrationDecision im heads s
  | .locklong im => Sys2Proof.Machine.execLocklong im s
  | .dmaDoorbell by_ q => Sys2Proof.Machine.execDmaDoorbell by_ q s
  | .dmaStart by_ q => Sys2Proof.Machine.execDmaStart by_ q s
  | .dmaStop by_ q => Sys2Proof.Machine.execDmaStop by_ q s
  | .dmaAbort by_ q => Sys2Proof.Machine.execDmaAbort by_ q s
  | .dmaResume by_ q => Sys2Proof.Machine.execDmaResume by_ q s
  | .dmaSkip by_ q => Sys2Proof.Machine.execDmaSkip by_ q s
  | .dmaReset by_ q => Sys2Proof.Machine.execDmaReset by_ q s
  | .dmaDescriptorFetch q now => Sys2Proof.Machine.execDmaDescriptorFetch q now s
  | .dmaNop q => Sys2Proof.Machine.execDmaNop q s
  | .copy q res => Sys2Proof.Machine.execCopy q res s
  | .copy2d q res => Sys2Proof.Machine.execCopy2d q res s
  | .transpose q res => Sys2Proof.Machine.execTranspose q res s
  | .convert q res => Sys2Proof.Machine.execConvert q res s
  | .fill q res => Sys2Proof.Machine.execFill q res s
  | .genchk q => Sys2Proof.Machine.execGenchk q s
  | .dmaCompletionRecord q => Sys2Proof.Machine.execDmaCompletionRecord q s
  | .dmaPhaseStart q unit => Sys2Proof.Machine.execDmaPhaseStart q unit s
  | .portBringup p => Sys2Proof.Machine.execPortBringup p s
  | .bringupPhaseTimeout p phase => Sys2Proof.Machine.execBringupPhaseTimeout p phase s
  | .bringupRetry p => Sys2Proof.Machine.execBringupRetry p s
  | .linkHello p port coord shape id => Sys2Proof.Machine.execLinkHello p port coord shape id s
  | .delayProbe p v => Sys2Proof.Machine.execDelayProbe p v s
  | .flitReceive p b => Sys2Proof.Machine.execFlitReceive p b s
  | .nak p seq => Sys2Proof.Machine.execNak p seq s
  | .retrainDone p ok => Sys2Proof.Machine.execRetrainDone p ok s
  | .credit p l => Sys2Proof.Machine.execCredit p l s
  | .unreachable k => Sys2Proof.Machine.execUnreachable k s
  | .routeAt p tick => Sys2Proof.Machine.execRouteAt p tick s
  | .routeUpdate => Sys2Proof.Machine.execRouteUpdate s
  | .beacon p st b => Sys2Proof.Machine.execBeacon p st b s
  | .flood p ns => Sys2Proof.Machine.execFlood p ns s
  | .noticeEffect => Sys2Proof.Machine.execNoticeEffect s
  | .seedTakeover => Sys2Proof.Machine.execSeedTakeover s
  | .fabEnable by_ on => Sys2Proof.Machine.execFabEnable by_ on s
  | .fabAuth by_ on => Sys2Proof.Machine.execFabAuth by_ on s
  | .fabDrain by_ => Sys2Proof.Machine.execFabDrain by_ s
  | .fabRejoin by_ => Sys2Proof.Machine.execFabRejoin by_ s
  | .trainingDone => Sys2Proof.Machine.execTrainingDone s
  | .admitAnnounce => Sys2Proof.Machine.execAdmitAnnounce s
  | .admitAtTick => Sys2Proof.Machine.execAdmitAtTick s
  | .drainComplete => Sys2Proof.Machine.execDrainComplete s
  | .leaveAtTick => Sys2Proof.Machine.execLeaveAtTick s
  | .notAdmitted src f after => Sys2Proof.Machine.execNotAdmitted src f after s
  | .portLost p => Sys2Proof.Machine.execPortLost p s
  | .flowCmdListen by_ f => Sys2Proof.Machine.execFlowCmdListen by_ f s
  | .flowCmdOpen by_ f => Sys2Proof.Machine.execFlowCmdOpen by_ f s
  | .flowCmdClose by_ f => Sys2Proof.Machine.execFlowCmdClose by_ f s
  | .flowCmdReset by_ f => Sys2Proof.Machine.execFlowCmdReset by_ f s
  | .flowOpen src sflow f => Sys2Proof.Machine.execFlowOpenCe src sflow f s
  | .flowAccept src sflow f => Sys2Proof.Machine.execFlowAcceptCe src sflow f s
  | .flowRefuse src f reason after => Sys2Proof.Machine.execFlowRefuse src f reason after s
  | .flowClose src f => Sys2Proof.Machine.execFlowClose src f s
  | .flowCloseDrained f => Sys2Proof.Machine.execFlowCloseDrained f s
  | .backoffExpiry f => Sys2Proof.Machine.execBackoffExpiry f s
  | .openTimeout f => Sys2Proof.Machine.execOpenTimeout f s
  | .reorderTimeout f => Sys2Proof.Machine.execReorderTimeout f s
  | .write f r => Sys2Proof.Machine.execWrite f r s
  | .read f r => Sys2Proof.Machine.execRead f r s
  | .resp f pseq res => Sys2Proof.Machine.execResp f pseq res s
  | .atomic f r => Sys2Proof.Machine.execAtomic f r s
  | .bulk f r => Sys2Proof.Machine.execBulk f r s
  | .fabBindInv by_ v => Sys2Proof.Machine.execFabBindInv by_ v s
  | .ceQueueDoorbell by_ q => Sys2Proof.Machine.execCeQueueDoorbell by_ q s
  | .ceQueueStart by_ q => Sys2Proof.Machine.execCeQueueStart by_ q s
  | .ceQueueStop by_ q => Sys2Proof.Machine.execCeQueueStop by_ q s
  | .ceQueueReset by_ q => Sys2Proof.Machine.execCeQueueReset by_ q s
  | .ceNop q => Sys2Proof.Machine.execCeNop q s
  | .reduceScatter q => Sys2Proof.Machine.execReduceScatter q s
  | .allGather q => Sys2Proof.Machine.execAllGather q s
  | .allReduce q => Sys2Proof.Machine.execAllReduce q s
  | .allToAll q => Sys2Proof.Machine.execAllToAll q s
  | .permute q => Sys2Proof.Machine.execPermute q s
  | .partTake g b st => Sys2Proof.Machine.execPartTake g b st s
  | .blocks k h bs fail => Sys2Proof.Machine.execBlocks k h bs fail s
  | .data k h total l => Sys2Proof.Machine.execData k h total l s
  | .ack k h => Sys2Proof.Machine.execAck k h s
  | .resend k h => Sys2Proof.Machine.execResend k h s
  | .bucketDeadline g b st segs exp0 => Sys2Proof.Machine.execBucketDeadline g b st segs exp0 s
  | .backupReq k h => Sys2Proof.Machine.execBackupReq k h s
  | .backupData k h bs => Sys2Proof.Machine.execBackupData k h bs s
  | .backupGraceExpiry g b st => Sys2Proof.Machine.execBackupGraceExpiry g b st s
  | .carryComplete g b st => Sys2Proof.Machine.execCarryComplete g b st s
  | .epochMismatch k h => Sys2Proof.Machine.execEpochMismatch k h s
  | .memberLost g b st => Sys2Proof.Machine.execMemberLost g b st s
  | .bucketComplete g b st => Sys2Proof.Machine.execBucketComplete g b st s
  | .shAdv by_ n v => Sys2Proof.Machine.execShAdv by_ n v s
  | .shHoldExpiry n => Sys2Proof.Machine.execShHoldExpiry n s
  | .linFind by_ n v => Sys2Proof.Machine.execLinFind by_ n v s
  | .ephOpen by_ v => Sys2Proof.Machine.execEphOpen by_ v s
  | .recordOpen => Sys2Proof.Machine.execRecordOpen s
  | .ephCommit by_ v => Sys2Proof.Machine.execEphCommit by_ v s
  | .stepCommit => Sys2Proof.Machine.execStepCommit s
  | .rollbackAtTick => Sys2Proof.Machine.execRollbackAtTick s
  | .ephModeChange => Sys2Proof.Machine.execEphModeChange s
  | .ephDigLen by_ v => Sys2Proof.Machine.execEphDigLen by_ v s
  | .digestComplete => Sys2Proof.Machine.execDigestComplete s
  | .ephNote by_ v => Sys2Proof.Machine.execEphNote by_ v s
  | .ephRecovWrite by_ v => Sys2Proof.Machine.execEphRecovWrite by_ v s
  | .budgetExpired => Sys2Proof.Machine.execBudgetExpired s
  | .coreRetirement c reason => Sys2Proof.Machine.execCoreRetirement c reason s
  | .fatalError reason code lost => Sys2Proof.Machine.execFatalError reason code lost s
  | .mbxDoorbell n => Sys2Proof.Machine.execMbxDoorbell n s
  | .mbxResRead n => Sys2Proof.Machine.execMbxResRead n s
  | .commandComplete n => Sys2Proof.Machine.execCommandComplete n s
  | .getIdentity n => Sys2Proof.Machine.execGetIdentity n s
  | .getStatus n => Sys2Proof.Machine.execGetStatus n s
  | .getLog n => Sys2Proof.Machine.execGetLog n s
  | .runtimeStart n => Sys2Proof.Machine.execRuntimeStart n s
  | .coreReset n => Sys2Proof.Machine.execCoreReset n s
  | .schedInstall n => Sys2Proof.Machine.execSchedInstall n s
  | .schedStart n => Sys2Proof.Machine.execSchedStart n s
  | .schedStop n => Sys2Proof.Machine.execSchedStop n s
  | .dqSet n => Sys2Proof.Machine.execDqSet n s
  | .tickSet n => Sys2Proof.Machine.execTickSet n s
  | .fabConfig n => Sys2Proof.Machine.execFabConfig n s
  | .fabControlEnable n => Sys2Proof.Machine.execFabControlEnable n s
  | .fabControlAuth n => Sys2Proof.Machine.execFabControlAuth n s
  | .fabControlDrain n => Sys2Proof.Machine.execFabControlDrain n s
  | .fabControlRejoin n => Sys2Proof.Machine.execFabControlRejoin n s
  | .fabControlDisable n => Sys2Proof.Machine.execFabControlDisable n s
  | .fabControlPortDisable n => Sys2Proof.Machine.execFabControlPortDisable n s
  | .fabControlPortEnable n => Sys2Proof.Machine.execFabControlPortEnable n s
  | .fabControlPortRetrain n => Sys2Proof.Machine.execFabControlPortRetrain n s
  | .fabPortRetrain by_ p => Sys2Proof.Machine.execFabPortRetrain by_ p s
  | .fabMembers n => Sys2Proof.Machine.execFabMembers n s
  | .cxlMap n => Sys2Proof.Machine.execCxlMap n s
  | .memPools n => Sys2Proof.Machine.execMemPools n s
  | .remoteTimeout n => Sys2Proof.Machine.execRemoteTimeout n s
  | .semAdd n => Sys2Proof.Machine.execSemAdd n s
  | .semToHost n => Sys2Proof.Machine.execSemToHost n s
  | .rollback n => Sys2Proof.Machine.execRollback n s
  | .dumpSet n => Sys2Proof.Machine.execDumpSet n s
  | .moduleReset n => Sys2Proof.Machine.execModuleReset n s
  | .fwWrite n => Sys2Proof.Machine.execFwWrite n s
  | .fwActivate n => Sys2Proof.Machine.execFwActivate n s
  | .debugNonce n => Sys2Proof.Machine.execDebugNonce n s
  | .debugToken n => Sys2Proof.Machine.execDebugToken n s
  | .hostCxlMemAccess pa n data => Sys2Proof.Machine.execHostCxlMemAccess pa n data s
  | .hostHeartbeat => Sys2Proof.Machine.execHostHeartbeat s
  | .getVersion t => Sys2Proof.Machine.execGetVersion t s
  | .getCapabilities t version => Sys2Proof.Machine.execGetCapabilities t version s
  | .negotiateAlgorithms t ed448 sha3 => Sys2Proof.Machine.execNegotiateAlgorithms t ed448 sha3 s
  | .getDigests t => Sys2Proof.Machine.execGetDigests t s
  | .getCertificate t slot off len => Sys2Proof.Machine.execGetCertificate t slot off len s
  | .challenge t slot => Sys2Proof.Machine.execChallenge t slot s
  | .getMeasurements t index signed => Sys2Proof.Machine.execGetMeasurements t index signed s
  | .pldmFirmwareUpdate image => Sys2Proof.Machine.execPldmFirmwareUpdate image s
  | .activateFirmware => Sys2Proof.Machine.execActivateFirmware s
  | .pldmSensorRead n => Sys2Proof.Machine.execPldmSensorRead n s
  | .getId => Sys2Proof.Machine.execGetId s
  | .getNonce => Sys2Proof.Machine.execGetNonce s
  | .putToken l => Sys2Proof.Machine.execPutToken l s
  | .readState c n => Sys2Proof.Machine.execReadState c n s
  | .halt c => Sys2Proof.Machine.execHalt c s
  | .resume c => Sys2Proof.Machine.execResume c s
  | .step c => Sys2Proof.Machine.execStep c s
  | .readMem pa n => Sys2Proof.Machine.execReadMem pa n s
  | .writeMem pa l => Sys2Proof.Machine.execWriteMem pa l s
  | .alidadeTrace n => Sys2Proof.Machine.execAlidadeTrace n s
  | .readPlate c p r => Sys2Proof.Machine.execReadPlate c p r s
  | .readSet c sel j => Sys2Proof.Machine.execReadSet c sel j s
  | .powerOn bad untrained modules => Sys2Proof.Machine.execPowerOn bad untrained modules s
  | .powerOff => Sys2Proof.Machine.execPowerOff s
  | .abruptPowerOff unit cause => Sys2Proof.Machine.execAbruptPowerOff unit cause s
  | .powerFatal why => Sys2Proof.Machine.execPowerFatal why s
  | .throttleStepDown step reason => Sys2Proof.Machine.execThrottleStepDown step reason s
  | .throttleStepUp step reason => Sys2Proof.Machine.execThrottleStepUp step reason s
  | .coldReset bad untrained => Sys2Proof.Machine.execColdReset bad untrained s
  | .warmReset bad => Sys2Proof.Machine.execWarmReset bad s
  | .coreResetSequence c => Sys2Proof.Machine.execCoreResetSequence c s
  | .linkReset p => Sys2Proof.Machine.execLinkReset p s
  | .alidadeWatchdogExpiry again bad untrained => Sys2Proof.Machine.execAlidadeWatchdogExpiry again bad untrained s
  | .readClear by_ o => Sys2Proof.Machine.execReadClear by_ o s
  | .registerWrite by_ o v => Sys2Proof.Machine.execRegisterWrite by_ o v s
  | .linkAlignLost p => Sys2Proof.Machine.execLinkAlignLost p s
  | .lineageSearchComplete n => Sys2Proof.Machine.execLineageSearchComplete n s
  | .ucieCxlLinkRetrained cxl index => Sys2Proof.Machine.execUcieCxlLinkRetrained cxl index s
  | .cxlExpanderDown port => Sys2Proof.Machine.execCxlExpanderDown port s
  | .mctpControlMessage assign => Sys2Proof.Machine.execMctpControlMessage assign s
  | .pldmBaseDiscovery => Sys2Proof.Machine.execPldmBaseDiscovery s
  | .alidadeRestart => Sys2Proof.Machine.execAlidadeRestart s

end Sys2Proof.Machine
end

