-- ==== Sys2Proof/WellFormed.lean ====
section
/-!
DEFINITION. Which commands are well formed: every number that names a core, channel, port, flow, queue, group or mailbox names one that some variant has (R5, R16, R268, R290, R316, R327, R402). Encodings that a core can fetch but not execute are well formed: the core takes cause 0x01 for them; bytes that a command gives in place of its encoding are such bytes.
-/
namespace Sys2Proof

/-- A logical core of the larger variant. -/
def coreOk (c : Nat) : Bool := decide (c < 192)
/-- The access behind a memory request: a level, MT and a horizon class. -/
def MemAcc.wf (a : MemAcc) : Bool :=
  decide (a.level < 3) && !a.page.any (fun p => decide (3 ≤ p.mt) || decide (8 ≤ p.hz)) &&
  (match a.kind with | .reg d => decide (d < 128) | _ => true)
/-- A DMA channel. -/
def chanOk (q : Nat) : Bool := decide (q < 256)
/-- A fabric port. -/
def portOk (p : Nat) : Bool := decide (p < 10)
/-- A flow context. -/
def flowOk (f : Nat) : Bool := decide (f < 16384)
/-- A device id. -/
def devOk (d : Nat) : Bool := decide (d < 16384)
/-- A packet sequence number of a flow. -/
def pseqOk (p : Nat) : Bool := decide (p < 65536)
/-- The place of a packet in a flow. -/
def FlowSeq.ok (k : FlowSeq) : Bool := flowOk k.flow && pseqOk k.pseq
/-- A collective queue. -/
def ceqOk (q : Nat) : Bool := decide (q < 8)
/-- A collective group. -/
def groupOk (g : Nat) : Bool := decide (g < 64)
/-- A Shuttle register set. -/
def shuttleOk (n : Nat) : Bool := decide (n < 512)
/-- A mailbox of Ranas. -/
def mboxOk (n : Nat) : Bool := decide (n < 64)
/-- A hardware semaphore. -/
def semOk (i : Nat) : Bool := decide (i < 4096)
/-- A compute die. -/
def dieOk (d : Nat) : Bool := decide (d < 4)
/-- A GDDR7 device. -/
def gddrOk (g : Nat) : Bool := decide (g < 16)
/-- An arbiter index. -/
def arbOk (i : Nat) : Bool := decide (i < 465)
/-- A core mailbox. -/
def cmbxOk (n : Nat) : Bool := decide (n < 256)
/-- An entry of a core mailbox. -/
def postOk (k : Nat) : Bool := decide (k < 8)
/-- An SPDM transport. -/
def transportOk (t : Nat) : Bool := decide (t < 2)
/-- A CXL root port. -/
def cxlOk (p : Nat) : Bool := decide (p < 2)
/-- A frame unit. -/
def unitOk (u : Nat) : Bool := decide (u < 1024)

/-- An agent that exists on some variant. -/
def agentOk : Agent → Bool
  | .core c => coreOk c
  | .dma q => chanOk q
  | .alidade => true
  | .host => true

/-- The core of an instruction exists on some variant. -/
def Issue.wf (x : Issue) : Bool :=
  coreOk x.core && x.bytes.all (fun l => decide (l.length ≤ 15) && (Machine.illegalBytes l).isSome)

/-- A command is well formed. -/
def Instr.wf : Instr → Bool
  | .tick => true
  | .holdoverExpiry => true
  | .tickSync _ _ _ _ _ _ => true
  | .periodSwitch _ => true
  | .tickModeChange => true
  | .tickCtrlWrite by_ _ _ => agentOk by_
  | .tickSwitchAtWrite by_ _ => agentOk by_
  | .tickCountLoRead by_ => agentOk by_
  | .scheduleStartAtTick => true
  | .scheduleStopAtTick => true
  | .frameTaskStart c => coreOk c
  | .deferredServe c _ => coreOk c
  | .slotStart p unit => portOk p && unitOk unit
  | .slotEnd p => portOk p
  | .exceptionEntry c => coreOk c
  | .deferredErrorReport c _ _ _ _ _ acc => coreOk c && decide (acc.1 < 3)
  | .mulResultLand c => coreOk c
  | .divResultLand c => coreOk c
  | .nop x => x.wf
  | .mov x _ _ => x.wf
  | .li x _ _ => x.wf
  | .lia x _ _ => x.wf
  | .mova x _ _ => x.wf
  | .getlo x _ _ => x.wf
  | .gethi x _ _ => x.wf
  | .setlo x _ _ => x.wf
  | .sethi x _ _ => x.wf
  | .adda x _ _ _ => x.wf
  | .addai x _ _ _ => x.wf
  | .cmpa x _ _ => x.wf
  | .add x _ _ _ => x.wf
  | .addc x _ _ _ => x.wf
  | .sub x _ _ _ => x.wf
  | .subb x _ _ _ => x.wf
  | .addi x _ _ _ => x.wf
  | .neg x _ _ => x.wf
  | .cmp x _ _ => x.wf
  | .cmpi x _ _ => x.wf
  | .and_ x _ _ _ => x.wf
  | .or_ x _ _ _ => x.wf
  | .xor_ x _ _ _ => x.wf
  | .andn x _ _ _ => x.wf
  | .not_ x _ _ => x.wf
  | .andi x _ _ _ => x.wf
  | .ori x _ _ _ => x.wf
  | .xori x _ _ _ => x.wf
  | .shl x _ _ _ => x.wf
  | .shr x _ _ _ => x.wf
  | .sar x _ _ _ => x.wf
  | .rol x _ _ _ => x.wf
  | .ror x _ _ _ => x.wf
  | .shli x _ _ _ => x.wf
  | .shri x _ _ _ => x.wf
  | .sari x _ _ _ => x.wf
  | .roli x _ _ _ => x.wf
  | .rori x _ _ _ => x.wf
  | .adds x _ _ _ => x.wf
  | .subs x _ _ _ => x.wf
  | .addus x _ _ _ => x.wf
  | .subus x _ _ _ => x.wf
  | .sarr x _ _ _ => x.wf
  | .satn x _ _ _ => x.wf
  | .satun x _ _ _ => x.wf
  | .abs x _ _ => x.wf
  | .min x _ _ _ => x.wf
  | .max x _ _ _ => x.wf
  | .minu x _ _ _ => x.wf
  | .maxu x _ _ _ => x.wf
  | .clz x _ _ => x.wf
  | .ctz x _ _ => x.wf
  | .popc x _ _ => x.wf
  | .par36 x _ _ => x.wf
  | .par18 x _ _ => x.wf
  | .brev36 x _ _ => x.wf
  | .brev18 x _ _ => x.wf
  | .brev8 x _ _ => x.wf
  | .ext x _ _ _ _ => x.wf
  | .extu x _ _ _ _ => x.wf
  | .ins x _ _ _ _ => x.wf
  | .sext18 x _ _ => x.wf
  | .sext8 x _ _ => x.wf
  | .crc32cB x _ _ => x.wf
  | .crc32cW x _ _ => x.wf
  | .crc16B x _ _ => x.wf
  | .crc16W x _ _ => x.wf
  | .ldw x _ _ _ => x.wf
  | .ldh x _ _ _ => x.wf
  | .ldhu x _ _ _ => x.wf
  | .ldb x _ _ _ => x.wf
  | .ldbs x _ _ _ => x.wf
  | .stw x _ _ _ => x.wf
  | .sth x _ _ _ => x.wf
  | .stb x _ _ _ => x.wf
  | .lda x _ _ _ => x.wf
  | .sta x _ _ _ => x.wf
  | .ldwx x _ _ _ => x.wf
  | .stwx x _ _ _ => x.wf
  | .push x _ => x.wf
  | .pop x _ => x.wf
  | .pusha x _ => x.wf
  | .popa x _ => x.wf
  | .amoadd x _ _ _ => x.wf
  | .amoswap x _ _ _ => x.wf
  | .cas x _ _ _ => x.wf
  | .mul x _ _ => x.wf
  | .mulu x _ _ => x.wf
  | .div x _ _ => x.wf
  | .divu x _ _ => x.wf
  | .rdmpl x _ => x.wf
  | .rdmph x _ => x.wf
  | .rdmq x _ => x.wf
  | .rdmrem x _ => x.wf
  | .wrmpl x _ => x.wf
  | .wrmph x _ => x.wf
  | .wrmq x _ => x.wf
  | .wrmrem x _ => x.wf
  | .b x _ => x.wf
  | .bc x _ _ => x.wf
  | .br x _ => x.wf
  | .call x _ => x.wf
  | .callr x _ => x.wf
  | .ret x => x.wf
  | .cbz x _ _ => x.wf
  | .cbnz x _ _ => x.wf
  | .eret x => x.wf
  | .brk x => x.wf
  | .waite x => x.wf
  | .rdpsw x _ => x.wf
  | .wrpsw x _ => x.wf
  | .rdaf x _ => x.wf
  | .wraf x _ => x.wf
  | .rdamax x _ _ => x.wf
  | .rdcsp x _ => x.wf
  | .wrcsp x _ => x.wf
  | .rdafp x _ => x.wf
  | .wrafp x _ => x.wf
  | .fence x _ => x.wf
  | .xinvAll x => x.wf
  | .xinv x _ => x.wf
  | .fdone x => x.wf
  | .rdm x _ _ => x.wf
  | .wrm x _ _ => x.wf
  | .vadd x _ _ _ => x.wf
  | .vsub x _ _ _ => x.wf
  | .vmul x _ _ _ => x.wf
  | .vfma x _ _ _ => x.wf
  | .vfnma x _ _ _ => x.wf
  | .vmin x _ _ _ => x.wf
  | .vmax x _ _ _ => x.wf
  | .vabs x _ _ => x.wf
  | .vneg x _ _ => x.wf
  | .vdiv x _ _ _ => x.wf
  | .vsqrt x _ _ => x.wf
  | .vadds x _ _ _ => x.wf
  | .vsubs x _ _ _ => x.wf
  | .vmulq x _ _ _ _ => x.wf
  | .vsarr x _ _ _ => x.wf
  | .vsat x _ _ _ => x.wf
  | .vand x _ _ _ => x.wf
  | .vor x _ _ _ => x.wf
  | .vxor x _ _ _ => x.wf
  | .vandn x _ _ _ => x.wf
  | .vnot x _ _ => x.wf
  | .vshl x _ _ _ => x.wf
  | .vshr x _ _ _ => x.wf
  | .vsar x _ _ _ => x.wf
  | .vmov x _ _ => x.wf
  | .vbcast x _ _ => x.wf
  | .vins x _ _ _ => x.wf
  | .vext x _ _ _ => x.wf
  | .viota x _ => x.wf
  | .vcmp x _ _ _ _ => x.wf
  | .vsel x _ _ _ _ => x.wf
  | .mand x _ _ _ => x.wf
  | .mor x _ _ _ => x.wf
  | .mxor x _ _ _ => x.wf
  | .mnot x _ _ => x.wf
  | .mpopc x _ _ => x.wf
  | .mfirst x _ _ => x.wf
  | .mtow x _ _ _ => x.wf
  | .mfromw x _ _ _ => x.wf
  | .vcvtw x _ _ _ _ _ => x.wf
  | .vcvtn x _ _ _ _ _ => x.wf
  | .vmxq x _ _ _ _ _ => x.wf
  | .vschoose x _ _ _ _ => x.wf
  | .vrsum x _ _ => x.wf
  | .vrmax x _ _ => x.wf
  | .vrmin x _ _ => x.wf
  | .vscan x _ _ => x.wf
  | .vperm x _ _ _ => x.wf
  | .vperm2 x _ _ _ _ => x.wf
  | .vslideup x _ _ _ => x.wf
  | .vslidedn x _ _ _ => x.wf
  | .vcompress x _ _ _ => x.wf
  | .vrcp x _ _ => x.wf
  | .vrsqrt x _ _ => x.wf
  | .vexp2 x _ _ => x.wf
  | .vlog2 x _ _ => x.wf
  | .vld x _ _ _ => x.wf
  | .vst x _ _ _ => x.wf
  | .vlds x _ _ _ => x.wf
  | .vsts x _ _ _ => x.wf
  | .vldn x _ _ _ _ => x.wf
  | .vstn x _ _ _ _ => x.wf
  | .vgather x _ _ _ => x.wf
  | .vscatter x _ _ _ => x.wf
  | .plcfg x _ _ => x.wf
  | .plget x _ _ _ => x.wf
  | .plrel x _ => x.wf
  | .plrelm x _ => x.wf
  | .plclrf x _ => x.wf
  | .pld x _ _ _ => x.wf
  | .pldRowWrite c => coreOk c
  | .pst x _ _ _ => x.wf
  | .plsv x _ _ => x.wf
  | .plrs x _ _ => x.wf
  | .plcvt x _ _ _ _ => x.wf
  | .plmxq x _ _ _ _ => x.wf
  | .plmvr x _ _ _ => x.wf
  | .plmrv x _ _ _ => x.wf
  | .arlds x _ _ => x.wf
  | .arldsx x _ _ _ => x.wf
  | .arldsp x _ _ _ => x.wf
  | .stationaryLoadComplete c => coreOk c
  | .mma x _ _ _ => x.wf
  | .mmax x _ _ _ _ => x.wf
  | .mmacv x _ _ _ _ _ => x.wf
  | .passComplete c => coreOk c
  | .arget x _ _ => x.wf
  | .arset x _ => x.wf
  | .arinv x _ => x.wf
  | .arsv x _ => x.wf
  | .arrs x _ => x.wf
  | .requestAdmit _ _ _ by_ => by_.2.wf
  | .memoryRequestComplete _ _ _ _ _ => true
  | .gddr7Refresh g _ => gddrOk g
  | .tcOpGo by_ die _ => agentOk by_ && dieOk die
  | .tcOpDone die _ => dieOk die
  | .remoteRequest f _ => flowOk f
  | .remoteTimeoutExpiry c => coreOk c
  | .semCountUpdate by_ i _ _ _ => agentOk by_ && semOk i
  | .cmbxPost by_ n k _ => agentOk by_ && cmbxOk n && postOk k
  | .arbitrationDecision i _ => arbOk i
  | .locklong i => arbOk i
  | .dmaDoorbell by_ q => agentOk by_ && chanOk q
  | .dmaStart by_ q => agentOk by_ && chanOk q
  | .dmaStop by_ q => agentOk by_ && chanOk q
  | .dmaAbort by_ q => agentOk by_ && chanOk q
  | .dmaResume by_ q => agentOk by_ && chanOk q
  | .dmaSkip by_ q => agentOk by_ && chanOk q
  | .dmaReset by_ q => agentOk by_ && chanOk q
  | .dmaDescriptorFetch q now => chanOk q && unitOk now.1
  | .dmaNop q => chanOk q
  | .copy q _ => chanOk q
  | .copy2d q _ => chanOk q
  | .transpose q _ => chanOk q
  | .convert q _ => chanOk q
  | .fill q _ => chanOk q
  | .genchk q => chanOk q
  | .dmaCompletionRecord q => chanOk q.1
  | .dmaPhaseStart q unit => chanOk q && unitOk unit
  | .portBringup p => portOk p
  | .bringupPhaseTimeout p _ => portOk p
  | .bringupRetry p => portOk p
  | .linkHello p _ _ _ _ => portOk p
  | .delayProbe p _ => portOk p
  | .flitReceive p fl => portOk p && fl.1.length == 256 && fl.2.all (· < 5)
  | .nak p _ => portOk p
  | .retrainDone p _ => portOk p
  | .credit p _ => portOk p
  | .unreachable k => devOk k.1 && k.2.ok
  | .routeAt p _ => portOk p
  | .routeUpdate => true
  | .beacon p st best => portOk p && decide (st < 8) && best.1.all (fun e => devOk e.1 && decide (e.2 < 32))
  | .flood p _ => portOk p
  | .noticeEffect => true
  | .seedTakeover => true
  | .fabEnable by_ _ => agentOk by_
  | .fabAuth by_ _ => agentOk by_
  | .fabDrain by_ => agentOk by_
  | .fabRejoin by_ => agentOk by_
  | .trainingDone => true
  | .admitAnnounce => true
  | .admitAtTick => true
  | .drainComplete => true
  | .leaveAtTick => true
  | .notAdmitted src f _ => devOk src && flowOk f
  | .portLost p => portOk p
  | .flowCmdListen by_ f => agentOk by_ && flowOk f
  | .flowCmdOpen by_ f => agentOk by_ && flowOk f
  | .flowCmdClose by_ f => agentOk by_ && flowOk f
  | .flowCmdReset by_ f => agentOk by_ && flowOk f
  | .flowOpen src sflow f => devOk src && flowOk sflow && flowOk f
  | .flowAccept src sflow f => devOk src && flowOk sflow && flowOk f
  | .flowRefuse src f _ _ => devOk src && flowOk f
  | .flowClose src f => devOk src && flowOk f
  | .flowCloseDrained f => flowOk f
  | .backoffExpiry f => flowOk f
  | .openTimeout f => flowOk f
  | .reorderTimeout f => flowOk f
  | .write f _ => flowOk f
  | .read f _ => flowOk f
  | .resp f _ _ => flowOk f
  | .atomic f _ => flowOk f
  | .bulk f _ => flowOk f
  | .fabBindInv by_ _ => agentOk by_
  | .ceQueueDoorbell by_ q => agentOk by_ && ceqOk q
  | .ceQueueStart by_ q => agentOk by_ && ceqOk q
  | .ceQueueStop by_ q => agentOk by_ && ceqOk q
  | .ceQueueReset by_ q => agentOk by_ && ceqOk q
  | .ceNop q => ceqOk q
  | .reduceScatter q => ceqOk q
  | .allGather q => ceqOk q
  | .allReduce q => ceqOk q
  | .allToAll q => ceqOk q
  | .permute q => ceqOk q
  | .partTake g _ _ => groupOk g
  | .blocks k _ l _ => k.ok && decide (1 ≤ l.length) && decide (l.length ≤ 39)
  | .data k _ _ l => k.ok && decide (l.length ≤ 4080)
  | .ack k _ => k.ok
  | .resend k _ => k.ok
  | .bucketDeadline g _ _ _ _ => groupOk g
  | .backupReq k _ => k.ok
  | .backupData k _ l => k.ok && decide (1 ≤ l.length) && decide (l.length ≤ 39)
  | .backupGraceExpiry g _ _ => groupOk g
  | .carryComplete g _ _ => groupOk g
  | .epochMismatch k _ => k.ok
  | .memberLost g _ _ => groupOk g
  | .bucketComplete g _ _ => groupOk g
  | .shAdv by_ n _ => agentOk by_ && shuttleOk n
  | .shHoldExpiry n => shuttleOk n
  | .linFind by_ n _ => agentOk by_ && coreOk n
  | .ephOpen by_ _ => agentOk by_
  | .recordOpen => true
  | .ephCommit by_ _ => agentOk by_
  | .stepCommit => true
  | .rollbackAtTick => true
  | .ephModeChange => true
  | .ephDigLen by_ _ => agentOk by_
  | .digestComplete => true
  | .ephNote by_ _ => agentOk by_
  | .ephRecovWrite by_ _ => agentOk by_
  | .budgetExpired => true
  | .coreRetirement c _ => coreOk c
  | .fatalError _ _ _ => true
  | .mbxDoorbell n => mboxOk n
  | .mbxResRead n => mboxOk n
  | .commandComplete n => mboxOk n
  | .getIdentity n => mboxOk n
  | .getStatus n => mboxOk n
  | .getLog n => mboxOk n
  | .runtimeStart n => mboxOk n
  | .coreReset n => mboxOk n
  | .schedInstall n => mboxOk n
  | .schedStart n => mboxOk n
  | .schedStop n => mboxOk n
  | .dqSet n => mboxOk n
  | .tickSet n => mboxOk n
  | .fabConfig n => mboxOk n
  | .fabControlEnable n => mboxOk n
  | .fabControlAuth n => mboxOk n
  | .fabControlDrain n => mboxOk n
  | .fabControlRejoin n => mboxOk n
  | .fabControlDisable n => mboxOk n
  | .fabControlPortDisable n => mboxOk n
  | .fabControlPortEnable n => mboxOk n
  | .fabControlPortRetrain n => mboxOk n
  | .fabPortRetrain by_ p => agentOk by_ && portOk p
  | .fabMembers n => mboxOk n
  | .cxlMap n => mboxOk n
  | .memPools n => mboxOk n
  | .remoteTimeout n => mboxOk n
  | .semAdd n => mboxOk n
  | .semToHost n => mboxOk n
  | .rollback n => mboxOk n
  | .dumpSet n => mboxOk n
  | .moduleReset n => mboxOk n
  | .fwWrite n => mboxOk n.1
  | .fwActivate n => mboxOk n
  | .debugNonce n => mboxOk n
  | .debugToken n => mboxOk n
  | .hostCxlMemAccess _ _ _ => true
  | .hostHeartbeat => true
  | .getVersion t => transportOk t
  | .getCapabilities t _ => transportOk t
  | .negotiateAlgorithms t _ _ => transportOk t
  | .getDigests t => transportOk t
  | .getCertificate t _ _ _ => transportOk t
  | .challenge t _ => transportOk t
  | .getMeasurements t _ _ => transportOk t
  | .pldmFirmwareUpdate _ => true
  | .activateFirmware => true
  | .pldmSensorRead _ => true
  | .getId => true
  | .getNonce => true
  | .putToken _ => true
  | .readState c _ => coreOk c
  | .halt c => coreOk c
  | .resume c => coreOk c
  | .step c => coreOk c
  | .readMem _ _ => true
  | .writeMem _ _ => true
  | .alidadeTrace _ => true
  | .readPlate c _ _ => coreOk c
  | .readSet c _ _ => coreOk c
  | .powerOn _ _ _ => true
  | .powerOff => true
  | .abruptPowerOff _ _ => true
  | .powerFatal why => decide (why.1 < 4)
  | .throttleStepDown _ _ => true
  | .throttleStepUp _ _ => true
  | .coldReset _ _ => true
  | .warmReset _ => true
  | .coreResetSequence c => coreOk c
  | .linkReset p => portOk p
  | .alidadeWatchdogExpiry _ _ _ => true
  | .readClear by_ _ => agentOk by_
  | .registerWrite by_ _ _ => agentOk by_
  | .linkAlignLost p => portOk p
  | .lineageSearchComplete n => coreOk n
  | .ucieCxlLinkRetrained _ _ => true
  | .cxlExpanderDown port => cxlOk port
  | .mctpControlMessage _ => true
  | .pldmBaseDiscovery => true
  | .alidadeRestart => true

end Sys2Proof
end

