-- ==== Sys2Proof/Safety.lean ====
section
/-!
DEFINITION. The words in which statements about the module are made: the canonical form of memory, when an instruction issues, the state after an instruction that changes only its core, and accessible memory.
-/
namespace Sys2Proof.Machine

/-! ## Memory -/

/-- The canonical form of memory: keys strictly rising, no entry equal to what an unlisted key reads as. -/
def Memory.wf (m : Tbl Byte) : Bool := Tbl.wf memDefault m

/-- Every byte of memory of `t` reads as in `s`. -/
def State.SameMem (s t : State) : Prop := ∀ k, t.byteAt k = s.byteAt k

/-! ## Issue -/

/-- The core issues instructions now: it runs and is not halted, no plate load and no remote access of it waits, no exception pends that can be taken, and single-stepping is off. -/
structure State.Free (s : State) (c : Nat) : Prop where
  live : s.live c = true
  running : (s.core c).run = .running
  notEnded : (s.core c).isEnded = false
  noLoad : (s.core c).pld = none
  noWait : s.remoteWait c = false
  noPending : (s.core c).pick = none
  noStep : (s.core c).sstep = false

/-- The core issues the instruction now: its encoding is legal, every byte of it can be fetched, and the earlier array work that it waits for raises no trap. -/
structure State.Ready (s : State) (x : Issue) (h : Shape) : Prop extends s.Free x.core where
  legal : h.legal x = true
  fetched : s.fetchBad x.core (s.core x.core).pl (s.core x.core).pc (h.len x) = none
  quiet : ((s.begin x h).core x.core).pTraps = (s.core x.core).pTraps

/-- The core meets an encoding that decoding rejects at the byte of offset `o`, and that byte can be fetched. -/
structure State.Rejects (s : State) (x : Issue) (h : Shape) (o : Nat) : Prop extends s.Free x.core where
  illegal : h.illegal x = some o
  fetched : s.fetchBad x.core (s.core x.core).pl (s.core x.core).pc (o + 1) = none

/-- The state after core `c` takes a precise exception of the instruction at its PC. -/
def State.trapped (s : State) (c cause : Nat) (info : Word) (fa : Pair) : State := s.enter c ((s.core c).exc cause info fa)

/-- A core after its instruction: a REUSE byte 0xDC has invalidated both latches (R179). -/
def Core.dropped (k : Core) (x : Issue) : Core := if x.reuse = some 0#2 then k.dropLatches else k

/-- The state after an instruction that leaves its core as `k`: the PC is past the instruction, and all else is as in `s`. -/
def State.done (s : State) (x : Issue) (h : Shape) (k : Core) : State :=
  s.setCore x.core { k.dropped x with pc := (s.core x.core).after h x }

/-- The same with a PC of its own. -/
def State.jumped (s : State) (x : Issue) (k : Core) (pc : Pair) : State := s.setCore x.core { k.dropped x with pc := pc }

/-- A core with w register `d` written and condition flags set; `none` leaves a flag as it is. -/
def Core.wrote (k : Core) (d : Reg) (v : Word) (z n c o : Option Bool) : Core :=
  { k.setW d v with psw := (⟨z, n, c, o⟩ : Cond).apply k.psw }

/-- A core with condition flags set and nothing else. -/
def Core.flagged (k : Core) (z n c o : Option Bool) : Core := { k with psw := (⟨z, n, c, o⟩ : Cond).apply k.psw }

/-- A core after a sum or difference by R91: the word written, its n-bit result `r`, the carry, and V by the exact signed result. -/
def Core.wroteSum (k : Core) (d : Reg) (v : Word) {n : Nat} (r : BitVec n) (carry : Bool) (exact : Int) : Core :=
  k.wrote d v (some (r = 0#n)) (some r.msb) (some carry) (some (r.toInt ≠ exact))

/-- A core after a result that sets Z and N and leaves C and V. -/
def Core.wroteZN (k : Core) (d : Reg) (v : Word) : Core := k.wrote d v (some (v = 0#36)) (some v.msb) none none

/-- A core after a shift or rotate by `n`: C is written only for an amount other than 0 (R94). -/
def Core.shifted (k : Core) (d : Reg) (v : Word) (n : Nat) (c : Bool) : Core :=
  k.wrote d v (some (v = 0#36)) (some v.msb) (if n = 0 then none else some c) none

/-- A core after a clamping instruction (R96): V tells a clamp, and a clamp sets the sticky SAT flag with its first-position record, after those of array work in flight (R135). -/
def Core.clamped (k : Core) (d : Reg) (v : Word) (clamp : Bool) : Core :=
  let k1 := k.wrote d v (some (v = 0#36)) (some v.msb) none (some clamp)
  if clamp then k1.noteInOrder 0 [{ flags := fSAT }] else k1

/-- Whether a branch of a condition code 0–14 is taken, by Z, N, C and V: the table of R92. -/
def takenWhen (z n c v : Bool) : Nat → Bool
  | 0 => z
  | 1 => !z
  | 2 => n != v
  | 3 => n == v
  | 4 => !c
  | 5 => c
  | 6 => !z && (n == v)
  | 7 => z || (n != v)
  | 8 => c && !z
  | 9 => !c || z
  | 10 => n
  | 11 => !n
  | 12 => v
  | 13 => !v
  | _ => true

/-! ## Vector registers -/

/-- `j` holds in v register `d` the lanes `f`, its other v registers are those of `k`, and VDIRTY (bit 15 of PSW) is set. -/
structure Core.WroteLanes (k j : Core) (d : Reg) (f : Nat → Word) : Prop where
  lanes : ∀ i, i < 64 → lane (j.getV d) i = f i
  others : ∀ r, r ≠ d → j.getV r = k.getV r
  dirty : j.psw = k.psw ||| 0x8000#36

/-- A lane of the destination under the mask (R146): the new value where active, else zero or the old value. -/
def Core.masked (k : Core) (x : Issue) (d : Reg) (f : Nat → Word) (i : Nat) : Word :=
  if (k.act x).getLsbD i then f i else if zeroing x then 0#36 else lane (k.getV d) i

/-- A core after an instruction that writes the lanes of `d` under its mask and does nothing else. -/
def Core.WroteV (k j : Core) (x : Issue) (d : Reg) (f : Nat → Word) : Prop :=
  k.WroteLanes j d (k.masked x d f) ∧ j = { k with v := j.v, psw := j.psw }

/-- A core after an instruction that writes mask register `d` and does nothing else; m0 discards it. -/
def Core.WroteM (k j : Core) (d : MReg) (v : BitVec 64) : Prop :=
  if d = 0#3 then j = k
  else j.getM d = v ∧ (∀ r, r ≠ d → j.getM r = k.getM r) ∧ j.psw = k.psw ||| 0x8000#36 ∧ j = { k with m := j.m, psw := j.psw }

/-- An element of an active lane of the instruction's format. -/
def Core.Active (k : Core) (x : Issue) (i e : Nat) : Prop := i < 64 ∧ (k.act x).getLsbD i = true ∧ e < (laneFmt x).perSlot

/-- AFLAGS of `j` is that of `k` with the flags that some element raises; its bits above the flags are not described. -/
def Core.Raised (k j : Core) (p : Nat → Prop) : Prop :=
  ∀ b, b < 9 → (j.aflags.getLsbD b = true ↔ k.aflags.getLsbD b = true ∨ p b)

/-- `j` counted a stochastic instruction exactly when `drew` (R130): register 0x2F advances; no other machine register changes. -/
structure Core.Drew (k j : Core) (drew : Prop) : Prop where
  yes : drew → j.getMreg 0x2F = k.getMreg 0x2F + 1#36
  no : ¬ drew → j.getMreg 0x2F = k.getMreg 0x2F
  others : ∀ n, n ≠ 0x2F → j.getMreg n = k.getMreg n

/-- The core in which an instruction's flags are noted: as it is, or after the array work in flight, which comes first where a first-position record is to be written (R135). -/
def Core.Noting (k b : Core) : Prop := b = k ∨ b = k.drain

/-- No trap follows an instruction's results: ATRAP is clear, and the array work in flight raises none. -/
def Core.Calm (k : Core) : Prop := k.atrap = false ∧ k.drain.pTraps = k.pTraps

/-- A core after an element-wise instruction: each active lane of `d` holds the bits of its elements' results, their flags are in AFLAGS, and nothing but the first-position record, the stochastic count and the free choice of a pipeline (log 53) changes beside. -/
structure Core.ElemsFrom (k j : Core) (x : Issue) (d : Reg) (f : Nat → Nat → FRes) : Prop where
  lanes : k.WroteLanes j d (k.masked x d (fun i => (laneFmt x).pack ((List.range (laneFmt x).perSlot).map (fun e => (f i e).bits))))
  flags : k.Raised j (fun b => ∃ i e, k.Active x i e ∧ (f i e).flags.getLsbD b = true)
  draws : k.Drew j (∃ i e, k.Active x i e ∧ (f i e).stoch = true)
  rest : j = { k with v := j.v, psw := j.psw, aflags := j.aflags, afpos := j.afpos, mreg := j.mreg, pipeDraws := j.pipeDraws }

/-- The same from the core in which its flags are noted. -/
def Core.DidElems (k j : Core) (x : Issue) (d : Reg) (f : Nat → Nat → FRes) : Prop := ∃ b, k.Noting b ∧ b.ElemsFrom j x d f

/-- A core after results at stream elements of `d` (R151): element q of the register is element q mod n of lane q div n; elements without a result keep their values. -/
structure Core.StreamFrom (k j : Core) (d : Reg) (nf : NumFmt) (g : Nat → Option FRes) : Prop where
  elems : ∀ q, q < 64 * nf.perSlot → nf.elem (lane (j.getV d) (q / nf.perSlot)) (q % nf.perSlot) =
    match g q with
    | some r => r.bits % 2 ^ nf.width
    | none => nf.elem (lane (k.getV d) (q / nf.perSlot)) (q % nf.perSlot)
  same : ∀ i, i < 64 → (∀ q, q / nf.perSlot = i → g q = none) → lane (j.getV d) i = lane (k.getV d) i
  others : ∀ r, r ≠ d → j.getV r = k.getV r
  dirty : j.psw = k.psw ||| 0x8000#36
  flags : k.Raised j (fun b => ∃ q r, g q = some r ∧ r.flags.getLsbD b = true)
  draws : k.Drew j (∃ q r, g q = some r ∧ r.stoch = true)
  rest : j = { k with v := j.v, psw := j.psw, aflags := j.aflags, afpos := j.afpos, mreg := j.mreg, pipeDraws := j.pipeDraws }

/-- The same from the core in which its flags are noted. -/
def Core.DidStream (k j : Core) (d : Reg) (nf : NumFmt) (g : Nat → Option FRes) : Prop := ∃ b, k.Noting b ∧ b.StreamFrom j d nf g

/-- A fixed binary tree over leaves 0 to 2^k − 1: the node of level k at leaf i joins the partial results of leaves i and i + 2^(k−1). -/
def treeOf {α : Type} (node : Nat → Nat → α → α → α) (leaf : Nat → α) : Nat → Nat → α
  | 0, i => leaf i
  | k + 1, i => node (k + 1) i (treeOf node leaf k i) (treeOf node leaf k (i + 2 ^ k))

/-! ## Accessible memory -/

/-- A slot of `n` bytes at an address lies on this device, in memory that the level may access, at physical address `pa`. -/
structure State.SlotAt (s : State) (lvl : Nat) (need : Need) (a : Pair) (n pa : Nat) : Prop where
  top : badTop a = false
  here : s.onDevice a = true
  walk : ∃ h, s.xlate lvl need (localOf a) = .ok (pa, h)
  open_ : s.permits pa n = none
  memory : ∀ o, s.region pa ≠ .ctl o

/-- What a run of writes leaves at a key: the last write that covers it stands. -/
def writesAt (ws : List (Nat × List Byte)) (old : Byte) (k : Nat) : Byte :=
  ws.foldl (fun b w => if w.1 ≤ k ∧ k < w.1 + w.2.length then w.2.getD (k - w.1) 0#8 else b) old

/-- `t` is `u` but for memory: key k reads `g k`. Errors of lines or slots written whole may clear, generation counters of memory regions (R253) may advance, and lines of tensor caches and L1 data caches may change; no other register does. -/
structure State.StoredBy (u t : State) (g : Nat → Byte) : Prop where
  rest : t = { u with mem := t.mem, poison := t.poison, lsBad := t.lsBad, ctl := t.ctl, tcLines := t.tcLines, l1d := t.l1d }
  bytes : ∀ k, t.byteAt k = g k
  regs : ∀ o, ¬ (0x30000 ≤ o ∧ o < 0x40000 ∧ o % 16 = 8) → t.ctlGet o = u.ctlGet o

/-- `t` is `u` with a run of writes of whole bytes. -/
def State.Stored (u t : State) (ws : List (Nat × List Byte)) : Prop := u.StoredBy t (fun k => writesAt ws (u.byteAt k) k)

/-- The same for writes that store some bits of their bytes. -/
def bitsAt (ws : List (Nat × List MByte)) (old : Byte) (k : Nat) : Byte :=
  ws.foldl (fun b w => if w.1 ≤ k ∧ k < w.1 + w.2.length then
    (b &&& ~~~ (w.2.getD (k - w.1) (0#8, 0#8)).2) ||| ((w.2.getD (k - w.1) (0#8, 0#8)).1 &&& (w.2.getD (k - w.1) (0#8, 0#8)).2) else b) old

/-- The active lanes of an access lie on this device. -/
structure State.LanesHere (s : State) (v : VecAcc) (l : List Nat) : Prop where
  together : s.strayLane v l = none
  here : ∀ i, l.head? = some i → s.onDevice (v.addr i) = true

/-- Every slot of an access is placed in memory, at `ls`, and no read of it meets a detected error. -/
structure State.Placed (s : State) (lvl : Nat) (need : Need) (l : List Slot) (ls : List (List Piece)) : Prop where
  checked : s.wideCheck lvl need l = .ok ls
  clean : ∀ ps, ps ∈ ls → ∀ p, p ∈ ps → s.readErr p.pa p.len = none
  memory : ∀ ps, ps ∈ ls → ∀ p, p ∈ ps → ∀ o, s.region p.pa ≠ .ctl o

/-- `t` is `u` but for lines of tensor caches and L1 data caches: what a load leaves beside its register. -/
def State.Loaded (u t : State) : Prop := t = { u with tcLines := t.tcLines, l1d := t.l1d }

/-! ## Commands of Ranas -/

/-- Alidade may begin mailbox `n`'s command `op`: it is the post at the front, and no check of R405 refuses it. -/
structure State.Posted (s : State) (p : Post) (n op : Nat) : Prop where
  front : s.nextPost = some p
  mbox : p.mbox = n
  opcode : p.op = op
  accepted : s.cmdCheck p = 0

/-- A command row carries the post out: its result code and payload wait for COMMAND_COMPLETE, the post leaves the queue, and the state has the effect. -/
def State.Carries (s : State) (c : Instr) (p : Post) (rc : Nat) (effect : State → List Byte → Prop) : Prop :=
  ∃ t pay, exec c s = .next t ∧ ({ mbox := p.mbox, seq := p.seq, op := p.op, rc := rc, pay := pay } : CmdDone) ∈ t.ranas.done ∧
    t.ranas.posts = s.ranas.posts.tail ∧ effect t pay

end Sys2Proof.Machine
end

