-- ==== Sys2Proof/Certificates/Slice0/Obligations.lean ====
section
/-!
DEFINITION. The statements for the provers. Each says which numbered rules of the spec it rests on.
-/
open Sys2Proof Sys2Proof.Machine


/-! ## Scalar instructions -/

/-- Moves and address pairs (R89, R93): the register named takes the operand; no flag, no other register and no memory changes. Completes: NOP, MOV, LI, LIA, MOVA, GETLO, GETHI, SETLO, SETHI, ADDA, ADDAI, SEXT18, SEXT8. -/
def Obligations.ScalarMovesWriteTheirOperand : Prop :=
  ∀ (s : State) (x : Issue) (d r : Reg) (e a : AReg) (i : Imm), let k := s.core x.core
    (s.Ready x (shOps 0) → exec (.nop x) s = .next (s.done x (shOps 0) k)) ∧
    (s.Ready x (shOps 2) → exec (.mov x d r) s = .next (s.done x (shOps 2) (k.setW d (k.getW r)))) ∧
    (s.Ready x (shImm 1 i) → exec (.li x d i) s = .next (s.done x (shImm 1 i) (k.setW d (immWord i)))) ∧
    (s.Ready x { shImm 1 i with limm := 2 } →
      exec (.lia x e i) s = .next (s.done x { shImm 1 i with limm := 2 } (k.setA e (immAddr i)))) ∧
    (s.Ready x (shOps 2) → exec (.mova x e a) s = .next (s.done x (shOps 2) (k.setA e (k.getA a)))) ∧
    (s.Ready x (shOps 2) → exec (.getlo x d a) s = .next (s.done x (shOps 2) (k.setW d ((k.getA a).extractLsb' 0 36)))) ∧
    (s.Ready x (shOps 2) → exec (.gethi x d a) s = .next (s.done x (shOps 2) (k.setW d ((k.getA a).extractLsb' 36 36)))) ∧
    (s.Ready x (shOps 2) → exec (.setlo x e r) s = .next (s.done x (shOps 2) (k.setA e ((k.getA e).extractLsb' 36 36 ++ k.getW r)))) ∧
    (s.Ready x (shOps 2) → exec (.sethi x e r) s = .next (s.done x (shOps 2) (k.setA e (k.getW r ++ (k.getA e).extractLsb' 0 36)))) ∧
    (s.Ready x (shOps 3) → exec (.adda x e a r) s = .next (s.done x (shOps 3) (k.setA e (k.getA a + (k.getW r).signExtend 72)))) ∧
    (s.Ready x { shImm 2 i with limm := 2 } →
      exec (.addai x e a i) s = .next (s.done x { shImm 2 i with limm := 2 } (k.setA e (k.getA a + immAddr i)))) ∧
    (s.Ready x (shOps 2) → exec (.sext18 x d r) s = .next (s.done x (shOps 2) (k.setW d (((k.getW r).setWidth 18).signExtend 36)))) ∧
    (s.Ready x (shOps 2) → exec (.sext8 x d r) s = .next (s.done x (shOps 2) (k.setW d (((k.getW r).setWidth 8).signExtend 36))))

/-- Additions, subtractions and compares (R91, R93): the result modulo 2^36, Z, N, the carry or no-borrow, and V as the signed overflow. Completes: CMPA, ADD, ADDC, SUB, SUBB, ADDI, NEG, CMP, CMPI. Logic (R91, R93): the bitwise result, Z and N; C and V stay. Completes: AND, OR, XOR, ANDN, NOT, ANDI, ORI, XORI. -/
def Obligations.SumsAndLogicSetTheirFlags : Prop :=
  (∀ (s : State) (x : Issue) (d a b : Reg) (e f : AReg) (i : Imm), let k := s.core x.core
    let p := k.getW a; let q := k.getW b; let cin := k.cf.toNat
    (s.Ready x (shHalf 3) → x.fw = none →
      exec (.add x d a b) s = .next (s.done x (shHalf 3) (k.wroteSum d (p + q) (p + q) (2 ^ 36 ≤ p.toNat + q.toNat) (p.toInt + q.toInt)))) ∧
    (s.Ready x (shOps 3) →
      exec (.addc x d a b) s = .next (s.done x (shOps 3) (k.wroteSum d (p + q + word cin) (p + q + word cin)
        (2 ^ 36 ≤ p.toNat + q.toNat + cin) (p.toInt + q.toInt + cin)))) ∧
    (s.Ready x (shHalf 3) → x.fw = none →
      exec (.sub x d a b) s = .next (s.done x (shHalf 3) (k.wroteSum d (p - q) (p - q) (q.toNat ≤ p.toNat) (p.toInt - q.toInt)))) ∧
    (s.Ready x (shOps 3) →
      exec (.subb x d a b) s = .next (s.done x (shOps 3) (k.wroteSum d (p - q - word (1 - cin)) (p - q - word (1 - cin))
        (q.toNat + (1 - cin) ≤ p.toNat) (p.toInt - q.toInt - (1 - cin : Int))))) ∧
    (s.Ready x (shImm 2 i) →
      exec (.addi x d a i) s = .next (s.done x (shImm 2 i) (k.wroteSum d (p + immWord i) (p + immWord i)
        (2 ^ 36 ≤ p.toNat + (immWord i).toNat) (p.toInt + (immWord i).toInt)))) ∧
    (s.Ready x (shOps 2) →
      exec (.neg x d a) s = .next (s.done x (shOps 2) (k.wroteSum d (0#36 - p) (0#36 - p) (p = 0#36) (-p.toInt)))) ∧
    (s.Ready x (shHalf 2) → x.fw = none →
      exec (.cmp x a b) s = .next (s.done x (shHalf 2) (k.flagged (some (p = q)) (some (p - q).msb) (some (q.toNat ≤ p.toNat))
        (some ((p - q).toInt ≠ p.toInt - q.toInt))))) ∧
    (s.Ready x (shImm 1 i) →
      exec (.cmpi x a i) s = .next (s.done x (shImm 1 i) (k.flagged (some (p = immWord i)) (some (p - immWord i).msb)
        (some ((immWord i).toNat ≤ p.toNat)) (some ((p - immWord i).toInt ≠ p.toInt - (immWord i).toInt))))) ∧
    (s.Ready x (shOps 2) →
      exec (.cmpa x e f) s = .next (s.done x (shOps 2) (k.flagged (some (k.getA e = k.getA f)) (some false)
        (some ((k.getA f).toNat ≤ (k.getA e).toNat)) (some false))))) ∧
  (∀ (s : State) (x : Issue) (d a b : Reg) (i : Imm), let k := s.core x.core
    let p := k.getW a; let q := k.getW b
    (s.Ready x (shOps 3) →
      exec (.and_ x d a b) s = .next (s.done x (shOps 3) (k.wroteZN d (p &&& q))) ∧
      exec (.or_ x d a b) s = .next (s.done x (shOps 3) (k.wroteZN d (p ||| q))) ∧
      exec (.xor_ x d a b) s = .next (s.done x (shOps 3) (k.wroteZN d (p ^^^ q))) ∧
      exec (.andn x d a b) s = .next (s.done x (shOps 3) (k.wroteZN d (p &&& ~~~ q)))) ∧
    (s.Ready x (shOps 2) → exec (.not_ x d a) s = .next (s.done x (shOps 2) (k.wroteZN d (~~~ p)))) ∧
    (s.Ready x (shImm 2 i) →
      exec (.andi x d a i) s = .next (s.done x (shImm 2 i) (k.wroteZN d (p &&& immWord i))) ∧
      exec (.ori x d a i) s = .next (s.done x (shImm 2 i) (k.wroteZN d (p ||| immWord i))) ∧
      exec (.xori x d a i) s = .next (s.done x (shImm 2 i) (k.wroteZN d (p ^^^ immWord i)))))

/-- FW code 1 (R95): ADD, SUB, CMP, ADDS, SUBS, MIN, MAX and SARR work on bits [17:0], sign-extend the result and take the flags of the 18-bit operation. Completes: ADD, SUB, CMP, ADDS, SUBS, SARR, MIN, MAX. -/
def Obligations.HalfwordFormsUseTheLowHalf : Prop :=
  ∀ (s : State) (x : Issue) (d a b : Reg) (n : Byte), x.fw = some 1#3 → let k := s.core x.core
    let p := (k.getW a).setWidth 18; let q := (k.getW b).setWidth 18
    (s.Ready x (shHalf 3) →
      exec (.add x d a b) s = .next (s.done x (shHalf 3) (k.wroteSum d ((p + q).signExtend 36) (p + q)
        (2 ^ 18 ≤ p.toNat + q.toNat) (p.toInt + q.toInt))) ∧
      exec (.sub x d a b) s = .next (s.done x (shHalf 3) (k.wroteSum d ((p - q).signExtend 36) (p - q)
        (q.toNat ≤ p.toNat) (p.toInt - q.toInt))) ∧
      (∀ v : Word, v.toInt = clampI (-(2 ^ 17)) (2 ^ 17 - 1) (p.toInt + q.toInt) →
        (k.clamped d v (v.toInt ≠ p.toInt + q.toInt)).pTraps = k.pTraps →
        exec (.adds x d a b) s = .next (s.done x (shHalf 3) (k.clamped d v (v.toInt ≠ p.toInt + q.toInt)))) ∧
      (∀ v : Word, v.toInt = clampI (-(2 ^ 17)) (2 ^ 17 - 1) (p.toInt - q.toInt) →
        (k.clamped d v (v.toInt ≠ p.toInt - q.toInt)).pTraps = k.pTraps →
        exec (.subs x d a b) s = .next (s.done x (shHalf 3) (k.clamped d v (v.toInt ≠ p.toInt - q.toInt)))) ∧
      exec (.min x d a b) s = .next (s.done x (shHalf 3) (k.wroteZN d (BitVec.ofInt 36 (min p.toInt q.toInt)))) ∧
      exec (.max x d a b) s = .next (s.done x (shHalf 3) (k.wroteZN d (BitVec.ofInt 36 (max p.toInt q.toInt))))) ∧
    (s.Ready x (shHalf 2) →
      exec (.cmp x a b) s = .next (s.done x (shHalf 2) (k.flagged (some (p = q)) (some (p - q).msb) (some (q.toNat ≤ p.toNat))
        (some ((p - q).toInt ≠ p.toInt - q.toInt))))) ∧
    (s.Ready x { shRB n 0 35 with fws := [1] } →
      exec (.sarr x d a n) s = .next (s.done x { shRB n 0 35 with fws := [1] }
        (k.wroteZN d (BitVec.ofInt 36 (if n = 0#8 then p.toInt else (p.toInt + 2 ^ (n.toNat - 1)) / 2 ^ n.toNat)))))

/-- R94: shifts fill with zeros or copies of bit 35, C is the last bit shifted out, an amount of 0 leaves C, rotates go by the amount mod 36, and an imm8 above 35 is illegal (the offset of its byte is 3 after the prefixes' bytes and the opcode). Completes: SHL, SHR, SAR, ROL, ROR, SHLI, SHRI, SARI, ROLI, RORI. -/
def Obligations.ShiftsAndRotates : Prop :=
  ∀ (s : State) (x : Issue) (d a b : Reg) (n : Byte), let k := s.core x.core
    let p := k.getW a
    let m := ((k.getW b).extractLsb' 0 6).toNat
    let shl (j : Nat) : Word := if j < 36 then p <<< j else 0#36
    let shr (j : Nat) : Word := if j < 36 then p >>> j else 0#36
    let sar (j : Nat) : Word := if j < 36 then p.sshiftRight j else if p.msb then BitVec.allOnes 36 else 0#36
    let outL (j : Nat) : Bool := if j ≤ 36 then p.getLsbD (36 - j) else false
    let outR (j : Nat) : Bool := if j ≤ 36 then p.getLsbD (j - 1) else false
    let outS (j : Nat) : Bool := if j ≤ 36 then p.getLsbD (j - 1) else p.getLsbD 35
    let rol (j : Nat) : Word := p.rotateLeft (j % 36)
    let ror (j : Nat) : Word := p.rotateRight (j % 36)
    (s.Ready x (shOps 3) →
      exec (.shl x d a b) s = .next (s.done x (shOps 3) (k.shifted d (shl m) m (outL m))) ∧
      exec (.shr x d a b) s = .next (s.done x (shOps 3) (k.shifted d (shr m) m (outR m))) ∧
      exec (.sar x d a b) s = .next (s.done x (shOps 3) (k.shifted d (sar m) m (outS m))) ∧
      exec (.rol x d a b) s = .next (s.done x (shOps 3) (k.shifted d (rol m) m ((rol m).getLsbD 0))) ∧
      exec (.ror x d a b) s = .next (s.done x (shOps 3) (k.shifted d (ror m) m ((ror m).getLsbD 35)))) ∧
    (s.Ready x (shRB n 0 35) → n.toNat ≤ 35 ∧
      exec (.shli x d a n) s = .next (s.done x (shRB n 0 35) (k.shifted d (shl n.toNat) n.toNat (outL n.toNat))) ∧
      exec (.shri x d a n) s = .next (s.done x (shRB n 0 35) (k.shifted d (shr n.toNat) n.toNat (outR n.toNat))) ∧
      exec (.sari x d a n) s = .next (s.done x (shRB n 0 35) (k.shifted d (sar n.toNat) n.toNat (outS n.toNat))) ∧
      exec (.roli x d a n) s = .next (s.done x (shRB n 0 35) (k.shifted d (rol n.toNat) n.toNat ((rol n.toNat).getLsbD 0))) ∧
      exec (.rori x d a n) s = .next (s.done x (shRB n 0 35) (k.shifted d (ror n.toNat) n.toNat ((ror n.toNat).getLsbD 35)))) ∧
    (∀ o, 35 < n.toNat → s.Rejects x (shRB n 0 35) o →
      exec (.shli x d a n) s = .next (s.trapped x.core 0x01 (word o) 0#72) ∧
      exec (.shri x d a n) s = .next (s.trapped x.core 0x01 (word o) 0#72) ∧
      exec (.sari x d a n) s = .next (s.trapped x.core 0x01 (word o) 0#72) ∧
      exec (.roli x d a n) s = .next (s.trapped x.core 0x01 (word o) 0#72) ∧
      exec (.rori x d a n) s = .next (s.trapped x.core 0x01 (word o) 0#72))

/-- Fixed point (R96) on whole words: results clamp into their range, V and the sticky SAT flag tell a clamp (where no array work that is in flight traps before it); ties of SARR round toward plus infinity; MIN, MAX, MINU and MAXU choose an operand. Completes: ADDS, SUBS, ADDUS, SUBUS, SARR, SATN, SATUN, ABS, MIN, MAX, MINU, MAXU. -/
def Obligations.FixedPointClampsAndSaysSo : Prop :=
  ∀ (s : State) (x : Issue) (d a b : Reg) (n : Byte), let k := s.core x.core
    let p := k.getW a; let q := k.getW b
    let clamps (h : Shape) (i : Instr) (lo hi exact : Int) : Prop :=
      let j := k.clamped d (BitVec.ofInt 36 (max lo (min hi exact))) (exact < lo ∨ hi < exact)
      j.pTraps = k.pTraps → exec i s = .next (s.done x h j)
    (s.Ready x (shHalf 3) → x.fw = none →
      clamps (shHalf 3) (.adds x d a b) (-(2 ^ 35)) (2 ^ 35 - 1) (p.toInt + q.toInt) ∧
      clamps (shHalf 3) (.subs x d a b) (-(2 ^ 35)) (2 ^ 35 - 1) (p.toInt - q.toInt) ∧
      exec (.min x d a b) s = .next (s.done x (shHalf 3) (k.wroteZN d (if p.toInt ≤ q.toInt then p else q))) ∧
      exec (.max x d a b) s = .next (s.done x (shHalf 3) (k.wroteZN d (if q.toInt ≤ p.toInt then p else q)))) ∧
    (s.Ready x (shOps 3) →
      clamps (shOps 3) (.addus x d a b) 0 (2 ^ 36 - 1) ((p.toNat : Int) + q.toNat) ∧
      clamps (shOps 3) (.subus x d a b) 0 (2 ^ 36 - 1) ((p.toNat : Int) - q.toNat) ∧
      exec (.minu x d a b) s = .next (s.done x (shOps 3) (k.wroteZN d (if p.toNat ≤ q.toNat then p else q))) ∧
      exec (.maxu x d a b) s = .next (s.done x (shOps 3) (k.wroteZN d (if q.toNat ≤ p.toNat then p else q)))) ∧
    (s.Ready x (shRB n 1 35) →
      clamps (shRB n 1 35) (.satn x d a n) (-(2 ^ (n.toNat - 1))) (2 ^ (n.toNat - 1) - 1) p.toInt ∧
      clamps (shRB n 1 35) (.satun x d a n) 0 (2 ^ n.toNat - 1) p.toInt) ∧
    (s.Ready x (shOps 2) → clamps (shOps 2) (.abs x d a) (-(2 ^ 35)) (2 ^ 35 - 1) (if p.toInt < 0 then -p.toInt else p.toInt)) ∧
    (s.Ready x { shRB n 0 35 with fws := [1] } → x.fw = none →
      exec (.sarr x d a n) s = .next (s.done x { shRB n 0 35 with fws := [1] }
        (k.wroteZN d (BitVec.ofInt 36 (if n = 0#8 then p.toInt else (p.toInt + 2 ^ (n.toNat - 1)) / 2 ^ n.toNat)))))

/-- Bits and fields (R93, R97, R452): counts and parities with Z, reversals, and fields moved by position and length. Completes: CLZ, CTZ, POPC, PAR36, PAR18, BREV36, BREV18, BREV8, EXT, EXTU, INS. -/
def Obligations.BitAndFieldResults : Prop :=
  ∀ (s : State) (x : Issue) (d a : Reg) (pos len : Byte), let k := s.core x.core
    let p := k.getW a
    let z (v : Word) : Core := k.wrote d v (some (v = 0#36)) none none none
    (s.Ready x (shOps 2) →
      (∀ n, n ≤ 36 → (∀ i, 36 - n ≤ i → i < 36 → p.getLsbD i = false) → (n < 36 → p.getLsbD (35 - n) = true) →
        exec (.clz x d a) s = .next (s.done x (shOps 2) (z (word n)))) ∧
      (∀ n, n ≤ 36 → (∀ i, i < n → p.getLsbD i = false) → (n < 36 → p.getLsbD n = true) →
        exec (.ctz x d a) s = .next (s.done x (shOps 2) (z (word n)))) ∧
      (let ones := ((List.range 36).filter (fun i => p.getLsbD i)).length
       exec (.popc x d a) s = .next (s.done x (shOps 2) (z (word ones))) ∧
       exec (.par36 x d a) s = .next (s.done x (shOps 2) (z (word (ones % 2))))) ∧
      (let lo := ((List.range 18).filter (fun i => p.getLsbD i)).length
       let hi := ((List.range 18).filter (fun i => p.getLsbD (18 + i))).length
       exec (.par18 x d a) s = .next (s.done x (shOps 2) (z (word (lo % 2 + 2 * (hi % 2)))))) ∧
      (∀ v : Word, (∀ i, i < 36 → v.getLsbD i = p.getLsbD (35 - i)) →
        exec (.brev36 x d a) s = .next (s.done x (shOps 2) (k.setW d v))) ∧
      (∀ v : Word, (∀ i, i < 18 → v.getLsbD i = p.getLsbD (17 - i) ∧ v.getLsbD (18 + i) = p.getLsbD (35 - i)) →
        exec (.brev18 x d a) s = .next (s.done x (shOps 2) (k.setW d v))) ∧
      (∀ v : Word, (∀ j i, j < 4 → i < 8 → v.getLsbD (8 * j + i) = p.getLsbD (8 * j + 7 - i)) →
          (∀ i, 32 ≤ i → i < 36 → v.getLsbD i = p.getLsbD i) →
        exec (.brev8 x d a) s = .next (s.done x (shOps 2) (k.setW d v)))) ∧
    (s.Ready x (shRBB pos len) →
      exec (.ext x d a pos len) s = .next (s.done x (shRBB pos len) (k.wroteZN d ((p.extractLsb' pos.toNat len.toNat).signExtend 36))) ∧
      exec (.extu x d a pos len) s = .next (s.done x (shRBB pos len) (k.wroteZN d ((p.extractLsb' pos.toNat len.toNat).setWidth 36))) ∧
      (∀ v : Word, (∀ i, i < 36 → v.getLsbD i =
          if pos.toNat ≤ i ∧ i < pos.toNat + len.toNat then p.getLsbD (i - pos.toNat) else (k.getW d).getLsbD i) →
        exec (.ins x d a pos len) s = .next (s.done x (shRBB pos len) (k.setW d v))))

/-- R98: the CRC steps take their bytes from rs, low byte first, keep their state in rd, and write the bits above the CRC as zero; one byte is eight shifts of its polynomial, and both checks of "123456789" hold. Completes: CRC32C_B, CRC32C_W, CRC16_B, CRC16_W. -/
def Obligations.CrcStepsKeepTheirStateInRd : Prop :=
  ∀ (s : State) (x : Issue) (d a : Reg), let k := s.core x.core
    let st := k.getW d
    let byte (i : Nat) : Byte := (k.getW a).extractLsb' (8 * i) 8
    let shift32 (v : BitVec 32) : BitVec 32 := if v.getLsbD 0 then (v >>> 1) ^^^ 0x82F63B78#32 else v >>> 1
    let shift16 (v : BitVec 16) : BitVec 16 := if v.getLsbD 15 then (v <<< 1) ^^^ 0x1021#16 else v <<< 1
    let step32 (v : BitVec 32) (b : Byte) : BitVec 32 := Nat.repeat shift32 8 (v ^^^ b.setWidth 32)
    let step16 (v : BitVec 16) (b : Byte) : BitVec 16 := Nat.repeat shift16 8 (v ^^^ (b.setWidth 16 <<< 8))
    let digits : List Byte := [0x31#8, 0x32#8, 0x33#8, 0x34#8, 0x35#8, 0x36#8, 0x37#8, 0x38#8, 0x39#8]
    (s.Ready x (shOps 2) →
      exec (.crc32cB x d a) s = .next (s.done x (shOps 2) (k.setW d ((step32 (st.setWidth 32) (byte 0)).setWidth 36))) ∧
      exec (.crc32cW x d a) s = .next (s.done x (shOps 2) (k.setW d
        ((step32 (step32 (step32 (step32 (st.setWidth 32) (byte 0)) (byte 1)) (byte 2)) (byte 3)).setWidth 36))) ∧
      exec (.crc16B x d a) s = .next (s.done x (shOps 2) (k.setW d ((step16 (st.setWidth 16) (byte 0)).setWidth 36))) ∧
      exec (.crc16W x d a) s = .next (s.done x (shOps 2) (k.setW d
        ((step16 (step16 (st.setWidth 16) (byte 0)) (byte 1)).setWidth 36)))) ∧
    digits.foldl step32 0xFFFFFFFF#32 ^^^ 0xFFFFFFFF#32 = 0xE3069283#32 ∧ digits.foldl step16 0xFFFF#16 = 0x29B1#16

/-- The multiplier and divider (R102, R105): a product or a quotient and remainder waits to land, a read returns what the register holds at issue, and landing writes both halves. A fourth product lands the oldest first, and a division waits for the previous one (the model's form of the latencies, log 20). Completes: MUL, MULU, DIV, DIVU, RDMPL, RDMPH, RDMQ, RDMREM, WRMPL, WRMPH, WRMQ, WRMREM, MUL_RESULT_LAND, DIV_RESULT_LAND. R102: with ATRAP 1 a zero divisor sets DZ, leaves the divider unstarted, and takes cause 0x0B with info bit 1 alone, fault address zero and the PC of the next instruction. -/
def Obligations.ProductsQuotientsAndZeroDivisors : Prop :=
  (∀ (s : State) (x : Issue) (d a b : Reg) (c : Nat), let k := s.core x.core
    let p := k.getW a; let q := k.getW b
    let j := if k.mulQ.length < 3 then k else k.landMul
    (s.Ready x (shOps 2) →
      exec (.mul x a b) s = .next (s.done x (shOps 2) { j with mulQ := j.mulQ ++ [BitVec.ofInt 72 (p.toInt * q.toInt)] }) ∧
      exec (.mulu x a b) s = .next (s.done x (shOps 2) { j with mulQ := j.mulQ ++ [BitVec.ofNat 72 (p.toNat * q.toNat)] }) ∧
      (q ≠ 0#36 →
        exec (.div x a b) s = .next (s.done x (shOps 2) { k.landDiv with
          divQ := some (BitVec.ofInt 36 (p.toInt.tdiv q.toInt), BitVec.ofInt 36 (p.toInt.tmod q.toInt)) }) ∧
        exec (.divu x a b) s = .next (s.done x (shOps 2) { k.landDiv with
          divQ := some (BitVec.ofNat 36 (p.toNat / q.toNat), BitVec.ofNat 36 (p.toNat % q.toNat)) })) ∧
      (q = 0#36 → k.atrap = false → let n := k.landDiv.noteInOrder 0 [{ flags := fDZ }]
        n.pTraps = k.pTraps →
        exec (.div x a b) s = .next (s.done x (shOps 2) { n with divQ := some (0o777777777777#36, p) }) ∧
        exec (.divu x a b) s = .next (s.done x (shOps 2) { n with divQ := some (0o777777777777#36, p) }))) ∧
    (s.Ready x (shOps 1) →
      exec (.rdmpl x d) s = .next (s.done x (shOps 1) (k.setW d k.mpl)) ∧
      exec (.rdmph x d) s = .next (s.done x (shOps 1) (k.setW d k.mph)) ∧
      exec (.rdmq x d) s = .next (s.done x (shOps 1) (k.setW d k.mq)) ∧
      exec (.rdmrem x d) s = .next (s.done x (shOps 1) (k.setW d k.mrem)) ∧
      exec (.wrmpl x a) s = .next (s.done x (shOps 1) { k with mpl := p }) ∧
      exec (.wrmph x a) s = .next (s.done x (shOps 1) { k with mph := p }) ∧
      exec (.wrmq x a) s = .next (s.done x (shOps 1) { k with mq := p }) ∧
      exec (.wrmrem x a) s = .next (s.done x (shOps 1) { k with mrem := p })) ∧
    (∀ y r, (s.core c).mulQ = y :: r →
      exec (.mulResultLand c) s = .next (s.setCore c { s.core c with
        mulQ := r, mpl := y.extractLsb' 0 36, mph := y.extractLsb' 36 36 })) ∧
    (∀ y r, (s.core c).divQ = some (y, r) →
      exec (.divResultLand c) s = .next (s.setCore c { s.core c with divQ := none, mq := y, mrem := r }))) ∧
  (∀ (s : State) (x : Issue) (a b : Reg), s.Ready x (shOps 2) → let k := s.core x.core
    k.getW b = 0#36 → k.atrap = true →
    let n := k.landDiv.noteInOrder 0 [{ flags := fDZ }]
    n.pTraps = k.pTraps →
    let e : Exc := { cause := 0x0B, info := 2#36, fa := 0#72, pc := k.after (shOps 2) x, target := n.route 0x0B k.pl }
    let t := (s.done x (shOps 2) n).enter x.core e
    exec (.div x a b) s = .next t ∧ exec (.divu x a b) s = .next t)

/-- Branches (R90, R92, R93): the target is relative to the address after the branch or is an a register; a branch not taken goes on; a condition byte above 14 is illegal at its own byte. Completes: B, BC, BR, CBZ, CBNZ. -/
def Obligations.BranchesGoToTheirTarget : Prop :=
  ∀ (s : State) (x : Issue) (r : Reg) (a : AReg) (cc : Byte) (i : Imm), let k := s.core x.core
    let go (h : Shape) (taken : Bool) : State := if taken then s.jumped x k (k.pc + BitVec.ofNat 72 (h.len x) + immAddr i) else s.done x h k
    (s.Ready x (shImm 0 i) → exec (.b x i) s = .next (go (shImm 0 i) true)) ∧
    (s.Ready x (shBc cc i) → cc.toNat < 15 ∧ exec (.bc x cc i) s = .next (go (shBc cc i)
      (takenWhen (k.psw.getLsbD 11) (k.psw.getLsbD 12) (k.psw.getLsbD 13) (k.psw.getLsbD 14) cc.toNat))) ∧
    (s.Ready x (shOps 1) → exec (.br x a) s = .next (s.jumped x k (k.getA a))) ∧
    (s.Ready x (shImm 1 i) →
      exec (.cbz x r i) s = .next (go (shImm 1 i) (k.getW r = 0#36)) ∧
      exec (.cbnz x r i) s = .next (go (shImm 1 i) (k.getW r ≠ 0#36))) ∧
    (∀ o, 15 ≤ cc.toNat → (shBc cc i).prefixBad x = false → (shBc cc i).prefixCount x < 5 → s.Rejects x (shBc cc i) o →
      o = (shBc cc i).prefixLen x + 1 ∧ exec (.bc x cc i) s = .next (s.trapped x.core 0x01 (word o) 0#72))

/-- Scalar loads from memory (R64, R93): an aligned datum goes to its register as the rule extends it, and nothing else changes but the PC and the tensor cache's lines. Completes: LDW, LDH, LDHU, LDB, LDBS, LDA, LDWX. Scalar stores to memory (R64, R93): the datum's bytes with copies of its top bit above it are written at the operand address, and no other byte, register or flag changes. Completes: STW, STH, STB, STA, STWX. Atomics on memory (R99): rd takes the old word, and the word becomes the sum, the operand, or, when the old word equals rd, the operand; CAS says in Z whether they were equal. Completes: AMOADD, AMOSWAP, CAS. -/
def Obligations.ScalarAccessesMoveTheirDatum : Prop :=
  (∀ (s : State) (x : Issue) (d r : Reg) (e a : AReg) (i : Imm) (pa qa : Nat), let k := s.core x.core
    let p := k.getA a + immAddr i
    let bytes (n : Nat) : Nat := natOfBytes (s.bytesAt pa n)
    let gives (h : Shape) (c : Instr) (v : Word) : Prop := ∃ t, exec c s = .next t ∧ (s.done x h (k.setW d v)).Loaded t
    (s.Ready x (shImm 2 i) →
      (p.toNat % 8 = 0 → s.SlotAt k.pl .read p 8 pa → s.readErr pa 8 = none → gives (shImm 2 i) (.ldw x d a i) (word (bytes 8))) ∧
      (p.toNat % 4 = 0 → s.SlotAt k.pl .read p 4 pa → s.readErr pa 4 = none →
        gives (shImm 2 i) (.ldh x d a i) ((BitVec.ofNat 18 (bytes 4)).signExtend 36) ∧
        gives (shImm 2 i) (.ldhu x d a i) ((BitVec.ofNat 18 (bytes 4)).setWidth 36)) ∧
      (s.SlotAt k.pl .read p 1 pa → s.readErr pa 1 = none →
        gives (shImm 2 i) (.ldb x d a i) ((BitVec.ofNat 8 (bytes 1)).setWidth 36) ∧
        gives (shImm 2 i) (.ldbs x d a i) ((BitVec.ofNat 8 (bytes 1)).signExtend 36)) ∧
      (p.toNat % 8 = 0 → s.SlotAt k.pl .read p 8 pa → s.readErr pa 8 = none →
        s.SlotAt k.pl .read (p + 8#72) 8 qa → s.readErr qa 8 = none →
        ∃ t, exec (.lda x e a i) s = .next t ∧
          (s.done x (shImm 2 i) (k.setA e (word (natOfBytes (s.bytesAt qa 8)) ++ word (bytes 8)))).Loaded t)) ∧
    (let p := k.getA a + (k.getW r).signExtend 72 * 8#72
     s.Ready x (shOps 3) → p.toNat % 8 = 0 → s.SlotAt k.pl .read p 8 pa → s.readErr pa 8 = none →
      gives (shOps 3) (.ldwx x d a r) (word (bytes 8)))) ∧
  (∀ (s : State) (x : Issue) (d r : Reg) (e a : AReg) (i : Imm) (pa qa k0 k1 : Nat), let k := s.core x.core
    let p := k.getA a + immAddr i
    let w := k.getW d
    let puts (h : Shape) (c : Instr) (l : List Byte) : Prop := ∃ t, exec c s = .next t ∧ (s.done x h k).Stored t [(k0, l)]
    s.cellKey pa = some k0 →
    (s.Ready x (shImm 2 i) →
      (p.toNat % 8 = 0 → s.SlotAt k.pl .write p 8 pa → s.writeErr pa 8 = none →
        puts (shImm 2 i) (.stw x d a i) (bytesOf (w.signExtend 64).toNat 8)) ∧
      (p.toNat % 4 = 0 → s.SlotAt k.pl .write p 4 pa → s.writeErr pa 4 = none →
        puts (shImm 2 i) (.sth x d a i) (bytesOf ((w.setWidth 18).signExtend 32).toNat 4)) ∧
      (s.SlotAt k.pl .write p 1 pa → s.writeErr pa 1 = none → puts (shImm 2 i) (.stb x d a i) [w.setWidth 8]) ∧
      (p.toNat % 8 = 0 → s.SlotAt k.pl .write p 8 pa → s.writeErr pa 8 = none →
        s.SlotAt k.pl .write (p + 8#72) 8 qa → s.writeErr qa 8 = none → s.cellKey qa = some k1 →
        (qa = pa + 8 → pa % 64 ≠ 56 → k1 = k0 + 8) →
        ∃ t, exec (.sta x e a i) s = .next t ∧ (s.done x (shImm 2 i) k).Stored t
          [(k0, wordBytes ((k.getA e).extractLsb' 0 36)), (k1, wordBytes ((k.getA e).extractLsb' 36 36))])) ∧
    (let p := k.getA a + (k.getW r).signExtend 72 * 8#72
     s.Ready x (shOps 3) → p.toNat % 8 = 0 → s.SlotAt k.pl .write p 8 pa → s.writeErr pa 8 = none →
      puts (shOps 3) (.stwx x d a r) (bytesOf (w.signExtend 64).toNat 8))) ∧
  (∀ (s : State) (x : Issue) (d r : Reg) (a : AReg) (pa k0 : Nat), let k := s.core x.core
    let p := k.getA a
    let old := word (natOfBytes (s.bytesAt pa 8))
    let slot (w : Word) : List (Nat × List Byte) := [(k0, bytesOf (w.signExtend 64).toNat 8)]
    s.Ready x (shOps 3) → p.toNat % 8 = 0 → s.SlotAt k.pl .both p 8 pa → s.readErr pa 8 = none → s.cellKey pa = some k0 →
    (∃ t, exec (.amoadd x d a r) s = .next t ∧ (s.done x (shOps 3) (k.setW d old)).Stored t (slot (old + k.getW r))) ∧
    (∃ t, exec (.amoswap x d a r) s = .next t ∧ (s.done x (shOps 3) (k.setW d old)).Stored t (slot (k.getW r))) ∧
    (∃ t, exec (.cas x d a r) s = .next t ∧
      (s.done x (shOps 3) (k.wrote d old (some (old = k.getW d)) none none none)).Stored t
        (if old = k.getW d then slot (k.getW r) else [])))

/-- R64, R222: an access whose address is not a multiple of its alignment takes cause 0x02 with the access and log2 of the alignment in its info word and the address as fault address; it reads and writes nothing else. Alignment of vector accesses (R158, R159): the lowest active lane with a misaligned address takes cause 0x02 with that address, when no lower lane fails; a misaligned base of VGATHER or VSCATTER takes it before any lane. -/
def Obligations.MisalignedAccessesTakeCause2 : Prop :=
  (∀ (s : State) (x : Issue) (d r : Reg) (e a : AReg) (i : Imm), let k := s.core x.core
    let traps (c : Instr) (p : Pair) (write log : Nat) : Prop :=
      p.toNat % 2 ^ log ≠ 0 → exec c s = .next (s.trapped x.core 0x02 (word (write + log * 4)) p)
    (s.Ready x (shImm 2 i) → let p := k.getA a + immAddr i
      traps (.ldw x d a i) p 0 3 ∧ traps (.ldh x d a i) p 0 2 ∧ traps (.ldhu x d a i) p 0 2 ∧ traps (.lda x e a i) p 0 3 ∧
      traps (.stw x d a i) p 1 3 ∧ traps (.sth x d a i) p 1 2 ∧ traps (.sta x e a i) p 1 3) ∧
    (s.Ready x (shOps 3) → let p := k.getA a + (k.getW r).signExtend 72 * 8#72
      traps (.ldwx x d a r) p 0 3 ∧ traps (.stwx x d a r) p 1 3 ∧
      traps (.amoadd x d a r) (k.getA a) 1 3 ∧ traps (.amoswap x d a r) (k.getA a) 1 3 ∧ traps (.cas x d a r) (k.getA a) 1 3)) ∧
  (∀ (s : State) (x : Issue) (d r i : Reg) (a : AReg) (m : Imm), let k := s.core x.core
    let active := (List.range 64).filter (fun i => (k.act x).getLsbD i)
    (s.Ready x (shV setAll 3) → (k.getA a).toNat % 8 ≠ 0 →
      exec (.vgather x d a i) s = .next (s.trapped x.core 0x02 (word (3 * 4)) (k.getA a)) ∧
      exec (.vscatter x d a i) s = .next (s.trapped x.core 0x02 (word (1 + 3 * 4)) (k.getA a))) ∧
    (let p := k.getA a + immAddr m
     s.Ready x (shVMem m 0) → active ≠ [] → p.toNat % 8 ≠ 0 → s.LanesHere (contiguous 0 3 p) active →
      ∀ l, active.head? = some l →
      exec (.vld x d a m) s = .next (s.trapped x.core 0x02 (word (3 * 4)) (p + BitVec.ofNat 72 (8 * l))) ∧
      exec (.vst x d a m) s = .next (s.trapped x.core 0x02 (word (1 + 3 * 4)) (p + BitVec.ofNat 72 (8 * l)))) ∧
    (let v := strided (k.getA a) (k.getW r)
     s.Ready x (shV setAll 3) → s.LanesHere v active →
      ∀ l ls, l ∈ active → (v.addr l).toNat % 8 ≠ 0 →
        s.wideCheck k.pl .read ((active.filter (· < l)).map v.slot) = .ok ls →
        exec (.vlds x d a r) s = .next (s.trapped x.core 0x02 (word (3 * 4)) (v.addr l))))

/-- The stacks (R106): an aligned access within the bounds of its level stores or loads at the pointer and moves it by the datum's size; calls save the address of the byte after them and returns go back to it. Completes: PUSH, POP, PUSHA, POPA, CALL, CALLR, RET. R106, R107: a stack address that is misaligned, below the lower bound, above the upper bound or not on this device takes cause 0x09 or 0x0A with the lowest of those reasons, and neither the pointer nor memory has changed before the entry. -/
def Obligations.StacksPushPopAndFault : Prop :=
  (∀ (s : State) (x : Issue) (d : Reg) (e : AReg) (i : Imm) (pa qa k0 k1 : Nat), let k := s.core x.core
    let fits (p : Pair) (n lo hi : Nat) : Prop := lo ≤ (p.extractLsb' 0 44).toNat ∧ (p.extractLsb' 0 44).toNat + n ≤ hi
    let dsp := k.getA 15#4
    let csp := k.csp.get k.pl
    let two (need : Need) (p : Pair) : Prop := s.SlotAt k.pl need p 8 pa ∧ s.SlotAt k.pl need (p + 8#72) 8 qa ∧
      s.cellKey pa = some k0 ∧ s.cellKey qa = some k1 ∧ (qa = pa + 8 → pa % 64 ≠ 56 → k1 = k0 + 8) ∧
      (if need = .read then s.readErr pa 8 = none ∧ s.readErr qa 8 = none else s.writeErr pa 8 = none ∧ s.writeErr qa 8 = none)
    let loaded : Pair := word (natOfBytes (s.bytesAt qa 8)) ++ word (natOfBytes (s.bytesAt pa 8))
    let slots (p : Pair) : List (Nat × List Byte) := [(k0, wordBytes (p.extractLsb' 0 36)), (k1, wordBytes (p.extractLsb' 36 36))]
    (s.Ready x (shOps 1) →
      (let p := dsp - 8#72
       p.toNat % 8 = 0 → fits p 8 (k.dlo k.pl) (k.dhi k.pl) → s.SlotAt k.pl .write p 8 pa → s.writeErr pa 8 = none →
        s.cellKey pa = some k0 →
        ∃ t, exec (.push x d) s = .next t ∧ (s.done x (shOps 1) (k.setA 15#4 p)).Stored t [(k0, wordBytes (k.getW d))]) ∧
      (let p := dsp - 16#72
       p.toNat % 8 = 0 → fits p 16 (k.dlo k.pl) (k.dhi k.pl) → two .write p →
        ∃ t, exec (.pusha x e) s = .next t ∧ (s.done x (shOps 1) (k.setA 15#4 p)).Stored t (slots (k.getA e))) ∧
      (dsp.toNat % 8 = 0 → fits dsp 8 (k.dlo k.pl) (k.dhi k.pl) → s.SlotAt k.pl .read dsp 8 pa → s.readErr pa 8 = none →
        ∃ t, exec (.pop x d) s = .next t ∧
          (s.done x (shOps 1) ((k.setA 15#4 (dsp + 8#72)).setW d (word (natOfBytes (s.bytesAt pa 8))))).Loaded t) ∧
      (dsp.toNat % 8 = 0 → fits dsp 16 (k.dlo k.pl) (k.dhi k.pl) → two .read dsp →
        ∃ t, exec (.popa x e) s = .next t ∧ (s.done x (shOps 1) ((k.setA 15#4 (dsp + 16#72)).setA e loaded)).Loaded t)) ∧
    (let p := csp - 16#72
     p.toNat % 16 = 0 → fits p 16 (k.clo k.pl) (k.chi k.pl) → two .write p →
      let back (h : Shape) : Pair := k.pc + BitVec.ofNat 72 (h.len x)
      (s.Ready x (shImm 0 i) → ∃ t, exec (.call x i) s = .next t ∧
        (s.jumped x { k with csp := k.csp.set k.pl p } (back (shImm 0 i) + immAddr i)).Stored t (slots (back (shImm 0 i)))) ∧
      (s.Ready x (shOps 1) → ∃ t, exec (.callr x e) s = .next t ∧
        (s.jumped x { k with csp := k.csp.set k.pl p } (k.getA e)).Stored t (slots (back (shOps 1))))) ∧
    (s.Ready x (shOps 0) → csp.toNat % 16 = 0 → fits csp 16 (k.clo k.pl) (k.chi k.pl) → two .read csp →
      ∃ t, exec (.ret x) s = .next t ∧ (s.jumped x { k with csp := k.csp.set k.pl (csp + 16#72) } loaded).Loaded t)) ∧
  (∀ (s : State) (x : Issue) (d : Reg) (e : AReg) (i : Imm), let k := s.core x.core
    let reason (p : Pair) (n align lo hi : Nat) : Option Nat :=
      if p.toNat % align ≠ 0 then some 0
      else if (p.extractLsb' 0 44).toNat < lo then some 1
      else if hi < (p.extractLsb' 0 44).toNat + n then some 2
      else if badTop p = true ∨ s.onDevice p = false then some 3 else none
    let traps (c : Instr) (cause write : Nat) (p : Pair) (n align lo hi : Nat) : Prop :=
      ∀ r, reason p n align lo hi = some r → exec c s = .next (s.trapped x.core cause (word (write + r * 4)) p)
    let dsp := k.getA 15#4
    let csp := k.csp.get k.pl
    (s.Ready x (shOps 1) →
      traps (.push x d) 0x09 1 (dsp - 8#72) 8 8 (k.dlo k.pl) (k.dhi k.pl) ∧
      traps (.pusha x e) 0x09 1 (dsp - 16#72) 16 8 (k.dlo k.pl) (k.dhi k.pl) ∧
      traps (.pop x d) 0x09 0 dsp 8 8 (k.dlo k.pl) (k.dhi k.pl) ∧
      traps (.popa x e) 0x09 0 dsp 16 8 (k.dlo k.pl) (k.dhi k.pl) ∧
      traps (.callr x e) 0x0A 1 (csp - 16#72) 16 16 (k.clo k.pl) (k.chi k.pl)) ∧
    (s.Ready x (shImm 0 i) → traps (.call x i) 0x0A 1 (csp - 16#72) 16 16 (k.clo k.pl) (k.chi k.pl)) ∧
    (s.Ready x (shOps 0) → traps (.ret x) 0x0A 0 csp 16 16 (k.clo k.pl) (k.chi k.pl)))

/-! ## The system map, exceptions and privilege -/

/-- R61, R63: WRPSW writes the writable fields of the PSW but PL; FNEST only at M, SSTEP not at T; a reserved RMODE or OVMODE code leaves its field; RDPSW reads the whole register; both come after the array work in flight. Completes: RDPSW, WRPSW. FDONE of an open task (R104, R53): OPEN clears, the level of the task issues nothing more, and the monitor counts no task as running; FDONE in a handler of another level goes on to the handler's end. Completes: FDONE. -/
def Obligations.PswAndTaskEnd : Prop :=
  (∀ (s : State) (x : Issue) (d a : Reg), s.Ready x (shWait 1) → let k := (s.core x.core).drain
    let v := k.getW a
    exec (.rdpsw x d) s = .next (s.done x (shWait 1) (k.setW d k.psw)) ∧
    ∃ p : Word, exec (.wrpsw x a) s = .next (s.done x (shWait 1) { k with psw := p }) ∧
      ∀ i, i < 36 → p.getLsbD i =
        if i < 2 then k.psw.getLsbD i
        else if i = 3 then (if k.pl = 0 then v.getLsbD 3 else k.psw.getLsbD 3)
        else if i = 10 then (if k.pl = 2 then k.psw.getLsbD 10 else v.getLsbD 10)
        else if 5 ≤ i ∧ i < 8 then (if (v.extractLsb' 5 3).toNat ≤ 4 then v.getLsbD i else k.psw.getLsbD i)
        else if 8 ≤ i ∧ i < 10 then (if (v.extractLsb' 8 2).toNat ≤ 2 then v.getLsbD i else k.psw.getLsbD i)
        else if i < 17 then v.getLsbD i else k.psw.getLsbD i) ∧
  (∀ (s : State) (x : Issue), s.Ready x (shSys 0) → (s.core x.core).open = true → (s.mon x.core).task = .frame →
    ∃ t, exec (.fdone x) s = .next t ∧ (t.core x.core).open = false ∧ (t.core x.core).ended = true ∧
      (t.issues x.core = false ↔ (s.core x.core).pl = (s.core x.core).taskLevel) ∧
      (t.core x.core).pc = (s.core x.core).after (shSys 0) x ∧ (t.mon x.core).task = .idle ∧
      (∀ r, (t.core x.core).getW r = (s.core x.core).getW r) ∧ s.SameMem t)

/-- Arithmetic flags, AMAX and the call stack pointer (R134, R139, R61): after the array work in flight the reads return the registers, RDAMAX clears what it reads, RDCSP and WRCSP reach the bank of PSW.PL; and a fence, a task end without an open task and a wait change nothing but the PC, the wait and, for a fence with I, the core's L1 instruction cache. Completes: WAITE, RDAF, WRAF, RDAMAX, RDCSP, WRCSP, RDAFP, WRAFP, FENCE, XINV_ALL, XINV, FDONE. -/
def Obligations.SystemRegistersReadAndWrite : Prop :=
  ∀ (s : State) (x : Issue) (d a : Reg) (e : AReg) (b n : Byte), let k := s.core x.core
    (s.Ready x (shWait 1) → let j := k.drain
      exec (.rdaf x d) s = .next (s.done x (shWait 1) (j.setW d j.aflags)) ∧
      exec (.rdafp x d) s = .next (s.done x (shWait 1) (j.setW d j.afpos)) ∧
      (∃ f : Word, exec (.wraf x a) s = .next (s.done x (shWait 1) { j with aflags := f }) ∧
        ∀ i, i < 10 → f.getLsbD i = (j.getW a).getLsbD i) ∧
      (∃ f : Word, exec (.wrafp x a) s = .next (s.done x (shWait 1) { j with afpos := f }) ∧
        ∀ i, i < 24 → f.getLsbD i = (j.getW a).getLsbD i)) ∧
    (s.Ready x (shSys 1) →
      exec (.rdcsp x e) s = .next (s.done x (shSys 1) (k.setA e (k.csp.get k.pl))) ∧
      exec (.wrcsp x e) s = .next (s.done x (shSys 1) { k with csp := k.csp.set k.pl (k.getA e) })) ∧
    (let h : Shape := { shSys 2 with bad := need (decide (n.toNat < vpipes)) 1 }
     s.Ready x h → n.toNat < 2 ∧
      exec (.rdamax x d n) s = .next (s.done x h ((k.setW d (Tbl.get 0#36 k.amax n.toNat)).setAmax n.toNat 0#36))) ∧
    (s.Ready x (shFence b) → exec (.fence x b) s =
      .next { s.done x (shFence b) k with l1i := if b.getLsbD 5 then Tbl.set [] s.l1i x.core [] else s.l1i }) ∧
    (s.Ready x (shSys 0) → exec (.waite x) s = .next (s.done x (shSys 0) { k with run := .waiting })) ∧
    (s.Ready x (shSys 0) → k.open = false → exec (.fdone x) s = .next (s.done x (shSys 0) k)) ∧
    (s.Ready x (shSys 0) → k.pl ≠ 2 → exec (.xinvAll x) s = .next (s.done x (shSys 0) k)) ∧
    (s.Ready x (shSys 1) → k.pl ≠ 2 → exec (.xinv x e) s = .next (s.done x (shSys 1) k))

/-- Privilege of the system map (R101, R102, R222): at T the translation fences, and at any level a machine register that the level may not reach, take cause 0x04 with their REASON; ERET at T takes REASON 4. BRK (R222): the breakpoint is taken after the BRK, with its address as fault address and the next instruction as PC. Completes: BRK. -/
def Obligations.PrivilegeAndBreakpointTraps : Prop :=
  (∀ (s : State) (x : Issue) (d a : Reg) (e : AReg) (n : BitVec 16), let k := s.core x.core
    (s.Ready x (shSys 0) → k.pl = 2 → exec (.xinvAll x) s = .next (s.trapped x.core 0x04 0#36 0#72)) ∧
    (s.Ready x (shWait 0) → k.pl = 2 → exec (.eret x) s = .next ((s.begin x (shWait 0)).trapped x.core 0x04 4#36 0#72)) ∧
    (s.Ready x (shSys 1) → k.pl = 2 → exec (.xinv x e) s = .next (s.trapped x.core 0x04 0#36 0#72)) ∧
    (∀ l, rdmLevel n.toNat = some l → l < k.pl → s.Ready x { shSys 3 with bad := numBad n 1 } →
      exec (.rdm x d n) s = .next (s.trapped x.core 0x04 (word (1 + n.toNat * 16)) 0#72)) ∧
    (wrmLevel n.toNat < k.pl → s.Ready x { shSys 3 with bad := numBad n 0 } →
      exec (.wrm x n a) s = .next (s.trapped x.core 0x04 (word (1 + n.toNat * 16)) 0#72))) ∧
  (∀ (s : State) (x : Issue), s.Ready x (shSys 0) → let k := s.core x.core
    exec (.brk x) s = .next ((s.done x (shSys 0) k).enter x.core
      { cause := 0x10, info := 0#36, fa := k.pc, pc := k.after (shSys 0) x, target := k.route 0x10 k.pl }))

/-- Machine registers (R101, R225): RDM returns the register at a level that may read it, the core's number and die in MCOREID, and MXROOT of the device; WRM writes a register at a level that may write it, and is ignored at M for one that no level writes. Completes: RDM, WRM. -/
def Obligations.MachineRegistersReadAndWrite : Prop :=
  ∀ (s : State) (x : Issue) (d a : Reg) (n : BitVec 16) (l : Nat), let k := s.core x.core
    let hr : Shape := { shSys 3 with bad := numBad n 1 }
    let hw : Shape := { shSys 3 with bad := numBad n 0 }
    rdmLevel n.toNat = some l →
    (s.Ready x hr → k.pl ≤ l →
      (n = 0x12#16 → exec (.rdm x d n) s = .next (s.done x hr (k.setW d (word (x.core + x.core / 48 * 256))))) ∧
      (n = 0x10#16 → exec (.rdm x d n) s = .next (s.done x hr (k.setW d s.mxroot))) ∧
      (0x13 ≤ n.toNat → n ≠ 0x19#16 → exec (.rdm x d n) s = .next (s.done x hr (k.setW d (k.getMreg n.toNat)))) ∧
      (n = 0x19#16 → ∃ t, exec (.rdm x d n) s = .next t ∧ (d ≠ 0#5 → (t.core x.core).getW d = k.getMreg 0x19) ∧
        ((t.core x.core).getMreg 0x19).toNat = (k.getMreg 0x19).toNat % 2 + (k.getMreg 0x19).toNat / 512 * 512)) ∧
    (s.Ready x hw → k.pl ≤ wrmLevel n.toNat →
      let sets (f : Nat → Word) : Prop := ∃ j : Core, exec (.wrm x n a) s = .next (s.done x hw j) ∧
        j = { k with mreg := j.mreg } ∧ ∀ m, j.getMreg m = f m
      (n = 0x10#16 → exec (.wrm x n a) s = .next { s.done x hw k with mxroot := k.getW a &&& 0xFFFFFFF#36 }) ∧
      (n.toNat < 0x10 ∨ n = 0x12#16 ∨ n = 0x17#16 ∨ (0x1A ≤ n.toNat ∧ n.toNat ≤ 0x1E) →
        exec (.wrm x n a) s = .next (s.done x hw k)) ∧
      (n = 0x14#16 ∨ n = 0x15#16 → sets (fun m => if m = n.toNat then k.getW a &&& 0xFFFFFFFF#36 ||| k.getMreg m &&& 0xF00000000#36
        else k.getMreg m)) ∧
      (n = 0x2D#16 → sets (fun m => if m = 0x2D then k.getW a else if m = 0x2F then 0#36 else k.getMreg m)) ∧
      ((0x20 ≤ n.toNat ∧ n.toNat ≤ 0x2C) ∨ (0x2F ≤ n.toNat ∧ n.toNat ≤ 0x31) →
        sets (fun m => if m = n.toNat then k.getW a else k.getMreg m)))

/-- Exception entry (R216, R217): when the frame fits the target level's data stack, the eight slots of the frame receive PSW, PC, fault address, cause, info and entry word, the stack pointer moves to it, DEPTH counts up, PL becomes the level with IE, ATRAP, SSTEP, RMODE and OVMODE clear, and the PC goes to the level's vector table plus cause times 64; nothing else in any register file or other core changes. ERET at M or K (R217): from a good frame of its own level it restores PC and PSW, takes the frame off the stack and counts DEPTH down, after the array work in flight; memory and the register files stay. Completes: ERET. -/
def Obligations.EntrySavesAndEretRestores : Prop :=
  (∀ (s : State) (c : Nat) (e : Exc) (pas : List Nat), let k := (s.core c).settle
    let lv := e.target
    let f := k.dsp.get lv - 64#72
    k.dfActive = false → lv < 2 → k.depth lv < k.nlimit → s.checkFrame k lv f = .ok pas → s.frameErr pas = none →
    let t := s.enter c e
    let depth := k.depth lv + 1
    (t.core c).pc = selfPair ((k.getMreg (if lv = 0 then 0x14 else 0x15)).toNat * 4096 + e.cause * 64) ∧
    (t.core c).pl = lv ∧ (t.core c).ie = false ∧ (t.core c).atrap = false ∧ (t.core c).sstep = false ∧
    (t.core c).rmode = 0 ∧ (t.core c).ovmode = 0 ∧ (t.core c).fnest = k.fnest ∧
    (t.core c).dsp = k.dsp.set lv f ∧ (t.core c).depth lv = depth ∧
    (∀ r, (t.core c).getW r = k.getW r) ∧ (t.core c).a = k.a ∧ (t.core c).csp = k.csp ∧
    (t.core c).v = k.v ∧ (t.core c).m = k.m ∧ (t.core c).plates = k.plates ∧ (t.core c).aflags = k.aflags ∧
    (∀ j, j ≠ c → t.core j = s.core j) ∧
    (∀ key, t.byteAt key = (s.putSlots pas (frameBytes k.psw e.pc e.fa e.cause e.info
      (word (lv + k.pl * 4 + (if e.raised then 16 else 0) + depth * 64)))).byteAt key)) ∧
  (∀ (s : State) (x : Issue) (l : List Word), s.Ready x (shWait 0) → let k := (s.core x.core).drain
    let f := k.dsp.get k.pl
    let psw := l.getD 0 0#36
    k.pl < 2 → k.dfActive = false → k.heldTraps = [] → s.stackBad f 64 8 (k.dlo k.pl) (k.dhi k.pl) = none →
    s.readSlots k.pl f = .ok l → (l.getD 7 0#36).toNat % 4 = k.pl →
    psw.toNat % 4 ≠ 3 → k.pl ≤ psw.toNat % 4 → (k.pl = 1 → (k.getMreg 0x16).toNat % 4 ≤ psw.toNat % 4) →
    (k.pl = 0 → (k.getMreg 0x1F).getLsbD 8 = false) → 0 < k.depth k.pl →
    ∃ t, exec (.eret x) s = .next t ∧
      (t.core x.core).pc = l.getD 2 0#36 ++ l.getD 1 0#36 ∧ (t.core x.core).pl = psw.toNat % 4 ∧
      (∀ i, i = 2 ∨ i = 4 ∨ (10 ≤ i ∧ i < 17) → (t.core x.core).psw.getLsbD i = psw.getLsbD i) ∧
      (t.core x.core).dsp = k.dsp.set k.pl (f + 64#72) ∧ (t.core x.core).depth k.pl = k.depth k.pl - 1 ∧
      (t.core x.core).w = k.w ∧ (t.core x.core).a = k.a ∧ (t.core x.core).csp = k.csp ∧
      (t.core x.core).v = k.v ∧ (t.core x.core).m = k.m ∧ (t.core x.core).plates = k.plates ∧
      t = { s.setCore x.core (t.core x.core) with monitor := t.monitor })

/-! ## The vector engine -/

/-- Bitwise and lane movement (R146, R147, R156): each active lane takes its value, an inactive lane keeps its own or is zeroed, and no flag changes but VDIRTY. Completes: VAND, VOR, VXOR, VANDN, VNOT, VMOV, VBCAST, VPERM, VPERM2, VSLIDEUP, VSLIDEDN. -/
def Obligations.VectorLanesMoveUnderTheMask : Prop :=
  ∀ (s : State) (x : Issue) (d a b i r : Reg), let k := s.core x.core
    let va := lane (k.getV a); let vb := lane (k.getV b); let vi := lane (k.getV i)
    let n := (k.getW r).toNat
    let writes (h : Shape) (c : Instr) (f : Nat → Word) : Prop := ∃ j : Core, exec c s = .next (s.done x h j) ∧ k.WroteV j x d f
    (s.Ready x (shV setAll 2) →
      writes (shV setAll 2) (.vmov x d a) va ∧
      writes (shV setAll 2) (.vnot x d a) (fun l => ~~~ va l) ∧
      writes (shV setAll 2) (.vbcast x d r) (fun _ => if (laneFmt x).perSlot = 1 then k.getW r
        else (k.getW r).extractLsb' 0 18 ++ (k.getW r).extractLsb' 0 18)) ∧
    (s.Ready x (shV setAll 3) →
      writes (shV setAll 3) (.vand x d a b) (fun l => va l &&& vb l) ∧
      writes (shV setAll 3) (.vor x d a b) (fun l => va l ||| vb l) ∧
      writes (shV setAll 3) (.vxor x d a b) (fun l => va l ^^^ vb l) ∧
      writes (shV setAll 3) (.vandn x d a b) (fun l => va l &&& ~~~ vb l) ∧
      writes (shV setAll 3) (.vperm x d a i) (fun l => va ((vi l).toNat % 64)) ∧
      writes (shV setAll 3) (.vslideup x d a r) (fun l => if n ≤ l then va (l - n) else 0#36) ∧
      writes (shV setAll 3) (.vslidedn x d a r) (fun l => if l + n < 64 then va (l + n) else 0#36)) ∧
    (s.Ready x (shV setAll 4) →
      writes (shV setAll 4) (.vperm2 x d a b i) (fun l =>
        let j := (vi l).toNat % 128
        if j < 64 then va j else vb (j - 64)))

/-- Single lanes, selection and compression (R147, R150, R156): VINS writes one lane, VEXT reads one, VSEL chooses per lane by a mask register, VCOMPRESS packs the marked lanes downward and zeroes the rest; a MASK prefix is illegal on each. Completes: VINS, VEXT, VSEL, VCOMPRESS. Masks (R84, R150): mask logic, counts and moves between halves of a mask and a register; VCMP compares each lane with NaN unordered and −0 equal to +0, and an inactive lane's bit is kept or cleared. Completes: VCMP, MAND, MOR, MXOR, MNOT, MPOPC, MFIRST, MTOW, MFROMW. -/
def Obligations.LanesAndMasksAreSelectedAndCombined : Prop :=
  (∀ (s : State) (x : Issue) (d a b r l : Reg) (m : MReg), let k := s.core x.core
    let n := (k.getW l).toNat % 64
    (∀ w h, x.mask = some w → h = shVN setAll 3 ∨ h = shVN setAll 4 → ¬ s.Ready x h) ∧
    (s.Ready x (shVN setAll 3) →
      (∃ j : Core, exec (.vins x d r l) s = .next (s.done x (shVN setAll 3) j) ∧
        k.WroteLanes j d (fun i => if i = n then k.getW r else lane (k.getV d) i) ∧ j = { k with v := j.v, psw := j.psw }) ∧
      exec (.vext x r a l) s = .next (s.done x (shVN setAll 3) (k.setW r (lane (k.getV a) n))) ∧
      (∃ j : Core, exec (.vcompress x d a m) s = .next (s.done x (shVN setAll 3) j) ∧ j = { k with v := j.v, psw := j.psw } ∧
        let marked := (List.range 64).filter (fun i => (k.getM m).getLsbD i)
        k.WroteLanes j d (fun i => if i < marked.length then lane (k.getV a) (marked.getD i 0) else 0#36))) ∧
    (s.Ready x (shVN setAll 4) →
      ∃ j : Core, exec (.vsel x d a b m) s = .next (s.done x (shVN setAll 4) j) ∧ j = { k with v := j.v, psw := j.psw } ∧
        k.WroteLanes j d (fun i => if (k.getM m).getLsbD i then lane (k.getV a) i else lane (k.getV b) i))) ∧
  (∀ (s : State) (x : Issue) (d a b : MReg) (w p q : Reg) (h c : Byte), let k := s.core x.core
    let sets (sh : Shape) (i : Instr) (v : BitVec 64) : Prop := ∃ j : Core, exec i s = .next (s.done x sh j) ∧ k.WroteM j d v
    (s.Ready x (shVM 3) →
      sets (shVM 3) (.mand x d a b) (k.getM a &&& k.getM b) ∧ sets (shVM 3) (.mor x d a b) (k.getM a ||| k.getM b) ∧
      sets (shVM 3) (.mxor x d a b) (k.getM a ^^^ k.getM b)) ∧
    (s.Ready x (shVM 2) →
      sets (shVM 2) (.mnot x d a) (~~~ k.getM a) ∧
      exec (.mpopc x w a) s = .next (s.done x (shVM 2) (k.setW w (word ((List.range 64).filter (fun i => (k.getM a).getLsbD i)).length))) ∧
      (∀ n, n ≤ 64 → (∀ i, i < n → (k.getM a).getLsbD i = false) → (n < 64 → (k.getM a).getLsbD n = true) →
        exec (.mfirst x w a) s = .next (s.done x (shVM 2) (k.setW w (word n))))) ∧
    (let sh : Shape := { shVM 3 with bad := need (decide (h.toNat < 2)) 2 }
     s.Ready x sh → h.toNat < 2 ∧
      exec (.mtow x w a h) s = .next (s.done x sh (k.setW w (((k.getM a).extractLsb' (32 * h.toNat) 32).setWidth 36))) ∧
      sets sh (.mfromw x d w h) (if h = 0#8 then (k.getM d).extractLsb' 32 32 ++ (k.getW w).extractLsb' 0 32
        else (k.getW w).extractLsb' 0 32 ++ (k.getM d).extractLsb' 0 32)) ∧
    (let sh : Shape := { shV setWd 4 with bad := need (decide (c.toNat < 7)) 3 }
     s.Ready x sh → c.toNat < 7 ∧ ∀ v : BitVec 64,
      (∀ i, i < 64 → v.getLsbD i =
        if (k.act x).getLsbD i then
          let y := lane (k.getV p) i; let z := lane (k.getV q) i
          if laneFmt x = .f36 then vcond c.toNat (NumFmt.f36.decode y.toNat) (NumFmt.f36.decode z.toNat)
          else
            let u : Int := if laneFmt x = .uint36 then (y.toNat : Int) else y.toInt
            let v : Int := if laneFmt x = .uint36 then (z.toNat : Int) else z.toInt
            match c.toNat with
            | 0 => u = v | 1 => u ≠ v | 2 => u < v | 3 => u ≤ v | 4 => v < u | 5 => v ≤ u | _ => false
        else if zeroing x then false else (k.getM d).getLsbD i) →
      sets sh (.vcmp x d p q c) v))

/-- Floating-point and wrapping arithmetic (R127, R148, R149) where no trap follows: every element of an active lane is the exact result rounded once by PSW.RMODE and PSW.OVMODE, or the low bits of the exact integer. Completes: VADD, VSUB, VMUL, VFMA, VFNMA, VDIV, VSQRT. -/
def Obligations.VectorArithmeticRoundsOnce : Prop :=
  ∀ (s : State) (x : Issue) (d a b : Reg), let k := s.core x.core
    let f := laneFmt x
    let does (h : Shape) (c : Instr) (g : Nat → Nat → FRes) : Prop := ∃ j : Core, exec c s = .next (s.done x h j) ∧ k.DidElems j x d g
    let fp (r : FVal → FVal → FVal → XRes) (i e : Nat) : FRes := f.deliver (k.rctx i e) (r (k.ev x a i e) (k.ev x b i e) (k.ev x d i e))
    let wrap (r : Int → Int → Int) (i e : Nat) : FRes :=
      { bits := (BitVec.ofInt f.width (r (f.intOf (k.el x a i e)) (f.intOf (k.el x b i e)))).toNat, flags := 0#9 }
    let any (r : FVal → FVal → FVal → XRes) (n : Int → Int → Int) (i e : Nat) : FRes := if f.isInt then wrap n i e else fp r i e
    k.Calm →
    (s.Ready x (shV setAll 3) →
      does (shV setAll 3) (.vadd x d a b) (any (fun p q _ => FVal.add k.rmode p q) (· + ·)) ∧
      does (shV setAll 3) (.vsub x d a b) (any (fun p q _ => FVal.add k.rmode p q.negate) (· - ·)) ∧
      does (shV setAll 3) (.vmul x d a b) (any (fun p q _ => p.mul q) (· * ·))) ∧
    (s.Ready x (shV setFl 3) →
      does (shV setFl 3) (.vfma x d a b) (fp (fun p q r => FVal.fma k.rmode p q r)) ∧
      does (shV setFl 3) (.vfnma x d a b) (fp (fun p q r => FVal.fma k.rmode p.negate q r)) ∧
      does (shV setFl 3) (.vdiv x d a b) (fp (fun p q _ => p.div q))) ∧
    (s.Ready x (shV setFl 2) →
      does (shV setFl 2) (.vsqrt x d a) (fun i e => f.deliver (k.rctx i e) (k.ev x a i e).sqrt))

/-- Minimum, maximum, magnitude and sign (R148) where no trap follows: a NaN gives way to a number, two NaNs give the canonical NaN with NANR, −0 is below +0; VABS and VNEG change the sign bit alone, and the most negative integer clamps with SAT. Completes: VMIN, VMAX, VABS, VNEG. Fixed point and shifts of elements (R149): exact integers clamped into the element's range with SAT, ties of a rounding shift toward plus infinity, and shifts with zeros or copies of the sign. Completes: VADDS, VSUBS, VMULQ, VSARR, VSAT, VSHL, VSHR, VSAR, VIOTA. -/
def Obligations.VectorChoosesSignsAndClamps : Prop :=
  (∀ (s : State) (x : Issue) (d a b : Reg), let k := s.core x.core
    let f := laneFmt x
    let does (h : Shape) (c : Instr) (g : Nat → Nat → FRes) : Prop := ∃ j : Core, exec c s = .next (s.done x h j) ∧ k.DidElems j x d g
    let nan (u v : Nat) (other : FRes) : FRes :=
      if f.decode u = .nan ∧ f.decode v = .nan then { bits := f.nanBits, flags := fNANR }
      else if f.decode u = .nan then { bits := v, flags := 0#9 }
      else if f.decode v = .nan then { bits := u, flags := 0#9 } else other
    let pick (max : Bool) (i e : Nat) : FRes :=
      let u := k.el x a i e; let v := k.el x b i e
      if f.isInt then { bits := if (if max then f.intOf v ≤ f.intOf u else f.intOf u ≤ f.intOf v) then u else v, flags := 0#9 }
      else nan u v { bits := if (if max then FVal.lt true (f.decode u) (f.decode v) else FVal.lt true (f.decode v) (f.decode u)) then v else u, flags := 0#9 }
    let sign (neg : Bool) (i e : Nat) : FRes :=
      let u := k.el x a i e
      if f.isInt then
        let r : Int := if neg then -f.intOf u else max (f.intOf u) (-f.intOf u)
        if r = 2 ^ (f.width - 1) then { bits := 2 ^ (f.width - 1) - 1, flags := fSAT }
        else { bits := (BitVec.ofInt f.width r).toNat, flags := 0#9 }
      else if f.decode u = .nan then { bits := f.nanBits, flags := fNANR }
      else { bits := u % 2 ^ (f.width - 1) + (if neg ∧ u / 2 ^ (f.width - 1) % 2 = 0 then 2 ^ (f.width - 1) else 0), flags := 0#9 }
    k.Calm →
    (s.Ready x (shV setAll 3) →
      does (shV setAll 3) (.vmin x d a b) (pick false) ∧ does (shV setAll 3) (.vmax x d a b) (pick true)) ∧
    (s.Ready x (shV [0, 1, 2, 3] 2) →
      does (shV [0, 1, 2, 3] 2) (.vabs x d a) (sign false) ∧ does (shV [0, 1, 2, 3] 2) (.vneg x d a) (sign true))) ∧
  (∀ (s : State) (x : Issue) (d a b : Reg) (n : Byte), let k := s.core x.core
    let f := laneFmt x
    let does (h : Shape) (c : Instr) (g : Nat → Nat → FRes) : Prop := ∃ j : Core, exec c s = .next (s.done x h j) ∧ k.DidElems j x d g
    let lo : Int := if f.isUnsigned then 0 else -(2 ^ (f.width - 1))
    let hi : Int := if f.isUnsigned then 2 ^ f.width - 1 else 2 ^ (f.width - 1) - 1
    let low (v : Int) : Nat := (BitVec.ofInt f.width v).toNat
    let clamp (lo hi : Int) (v : Int) : FRes := { bits := low (max lo (min hi v)), flags := if v < lo ∨ hi < v then fSAT else 0#9 }
    let u (i e : Nat) : Int := f.intOf (k.el x a i e)
    let v (i e : Nat) : Int := f.intOf (k.el x b i e)
    let shift (p : Int) : Int := if n = 0#8 then p else (p + 2 ^ (n.toNat - 1)) / 2 ^ n.toNat
    k.Calm →
    (s.Ready x (shV setIn 3) →
      does (shV setIn 3) (.vadds x d a b) (fun i e => clamp lo hi (u i e + v i e)) ∧
      does (shV setIn 3) (.vsubs x d a b) (fun i e => clamp lo hi (u i e - v i e))) ∧
    (s.Ready x (shV setIn 1) → does (shV setIn 1) (.viota x d) (fun i e => { bits := i * f.perSlot + e, flags := 0#9 })) ∧
    (let h : Shape := { shV setIn 4 with bad := immBad x n 0 3 }
     s.Ready x h → does h (.vmulq x d a b n) (fun i e => clamp lo hi (shift (u i e * v i e)))) ∧
    (let h : Shape := { shV setSg 3 with bad := immBad x n 0 2 }
     s.Ready x h →
      does h (.vsarr x d a n) (fun i e => { bits := low (shift (u i e)), flags := 0#9 }) ∧
      does h (.vsar x d a n) (fun i e => { bits := low (u i e / 2 ^ n.toNat), flags := 0#9 })) ∧
    (let h : Shape := { shV setIn 3 with bad := immBad x n 0 2 }
     s.Ready x h →
      does h (.vshl x d a n) (fun i e => { bits := k.el x a i e * 2 ^ n.toNat % 2 ^ f.width, flags := 0#9 }) ∧
      does h (.vshr x d a n) (fun i e => { bits := k.el x a i e / 2 ^ n.toNat, flags := 0#9 })) ∧
    (let h : Shape := { shV setIn 3 with bad := immBad x n 1 2 }
     s.Ready x h → does h (.vsat x d a n) (fun i e =>
      if f.isUnsigned then clamp 0 (2 ^ n.toNat - 1) (u i e) else clamp (-(2 ^ (n.toNat - 1))) (2 ^ (n.toNat - 1) - 1) (u i e))))

/-- Transcendental functions (R157) where no trap follows: the exact cases and the special values of its table are delivered as they are; any other finite result is the rounding, marked inexact, of an internal value that the model leaves free (log 21), for reciprocals and roots within the rule's relative error. Completes: VRCP, VRSQRT, VEXP2, VLOG2. Arithmetic trap (R137): with ATRAP set, an addition, product or quotient that raises INV, DZ or OVF in some element writes all its results and then takes cause 0x0B, with the instruction's flags in the info word and the next instruction as PC; one that raises none of them completes. -/
def Obligations.TranscendentalsAndArithmeticTraps : Prop :=
  (∀ (s : State) (x : Issue) (d a : Reg), s.Ready x (shV setFl 2) → let k := s.core x.core
    let f := laneFmt x
    let rb := if f = .f36 then 36 else 16
    k.Calm →
    let does (c : Instr) (spec : FVal → XRes → Prop) : Prop := ∃ (g : Nat → Nat → XRes) (j : Core),
      exec c s = .next (s.done x (shV setFl 2) j) ∧ k.DidElems j x d (fun i e => f.deliver (k.rctx i e) (g i e)) ∧
      ∀ i e, k.Active x i e → spec (k.ev x a i e) (g i e)
    does (.vrcp x d a) (fun v r =>
      (v = .nan → r.v = .nan) ∧ (∀ n, v = .zero n → r.v = .inf n ∧ r.flags = fDZ) ∧ (∀ n, v = .inf n → r.v = .zero n) ∧
      (∀ n m e, v = .fin n m e →
        (∀ t : Nat, m = 2 ^ t → r = { v := .fin n 1 (-(t + e)) }) ∧
        ((∀ t : Nat, m ≠ 2 ^ t) → r.sticky = true ∧ ∃ (m' j : Nat), r.v = .fin n m' (-(e + j)) ∧
          (2 ^ rb - 1) * 2 ^ j < m' * m * 2 ^ rb ∧ m' * m * 2 ^ rb < (2 ^ rb + 1) * 2 ^ j))) ∧
    does (.vrsqrt x d a) (fun v r =>
      (v = .nan → r.v = .nan) ∧ (∀ n, v = .zero n → r.v = .inf n ∧ r.flags = fDZ) ∧ (v = .inf false → r.v = .zero false) ∧
      (v.neg? = true → v ≠ .zero true → v ≠ .nan → r = .invalid) ∧
      (∀ m e, v = .fin false m e →
        (∀ t : Nat, m = 2 ^ t → (t + e) % 2 = 0 → r = { v := .fin false 1 (-((t + e) / 2)) }) ∧
        ((∀ t : Nat, m = 2 ^ t → (t + e) % 2 ≠ 0) → r.sticky = true ∧ ∃ (m' j : Nat) (e' : Int), r.v = .fin false m' e' ∧ 2 * e' + e = -j ∧
          (2 ^ rb - 1) ^ 2 * 2 ^ j < m' ^ 2 * m * 2 ^ (2 * rb) ∧ m' ^ 2 * m * 2 ^ (2 * rb) < (2 ^ rb + 1) ^ 2 * 2 ^ j))) ∧
    does (.vexp2 x d a) (fun v r =>
      (v = .nan → r.v = .nan) ∧ (∀ n, v = .zero n → r.v = .fin false 1 0) ∧
      (v = .inf false → r.v = .inf false) ∧ (v = .inf true → r.v = .zero false) ∧
      (∀ n m e, v = .fin n m e →
        (∀ i : Nat, 0 < i → i < 2048 → m * 2 ^ e.toNat = i * 2 ^ (-e).toNat → r = { v := .fin false 1 (if n then -(i : Int) else i) }) ∧
        (m % 2 ^ (-e).toNat ≠ 0 → r.sticky = true ∧ r.v.neg? = false))) ∧
    does (.vlog2 x d a) (fun v r =>
      (v = .nan → r.v = .nan) ∧ (∀ n, v = .zero n → r.v = .inf true ∧ r.flags = fDZ) ∧ (v = .inf false → r.v = .inf false) ∧
      (v.neg? = true → v ≠ .zero true → v ≠ .nan → r = .invalid) ∧
      (∀ m e, v = .fin false m e →
        (∀ t : Nat, m = 2 ^ t → r = { v := FVal.ofInt (t + e) 0 }) ∧ ((∀ t : Nat, m ≠ 2 ^ t) → r.sticky = true)))) ∧
  (∀ (s : State) (x : Issue) (d a b : Reg) (c : Instr) (h : Shape) (g : FVal → FVal → XRes), let k := s.core x.core
    (c = .vadd x d a b ∧ h = shV setAll 3 ∧ g = (fun p q => FVal.add k.rmode p q)) ∨
      (c = .vmul x d a b ∧ h = shV setAll 3 ∧ g = (fun p q => p.mul q)) ∨ (c = .vdiv x d a b ∧ h = shV setFl 3 ∧ g = (fun p q => p.div q)) →
    s.Ready x h → (laneFmt x).isInt = false → k.atrap = true → k.pTraps = [] → k.drain.pTraps = [] →
    let r (i e : Nat) : FRes := (laneFmt x).deliver (k.rctx i e) (g (k.ev x a i e) (k.ev x b i e))
    let bad (i e : Nat) : Prop := (r i e).flags &&& (fINV ||| fDZ ||| fOVF) ≠ 0#9
    ∃ j : Core, k.DidElems j x d r ∧
      ((∀ i e, k.Active x i e → ¬ bad i e) → exec c s = .next (s.done x h j)) ∧
      (∀ i e, k.Active x i e → bad i e → ∃ f : BitVec 9,
        (∀ n, n < 9 → (f.getLsbD n = true ↔ ∃ i e, k.Active x i e ∧ (r i e).flags.getLsbD n = true)) ∧
        exec c s = .next ((s.done x h j).enter x.core
          { cause := 0x0B, info := f.setWidth 36, fa := 0#72, pc := k.after h x, target := k.route 0x0B k.pl })))

/-- Reductions and scans (R155) where no trap follows: the floating-point sum is the fixed tree in which an inactive lane enters as −0; the integer sum and each scan position are the exact sum clamped once; the maximum and minimum are an element that none exceeds, NaN giving way. One result goes to every active element. Completes: VRSUM, VRMAX, VRMIN, VSCAN. -/
def Obligations.ReductionsFollowTheFixedTree : Prop :=
  ∀ (s : State) (x : Issue) (d a : Reg), let k := s.core x.core
    let f := laneFmt x
    let n := f.perSlot
    let lo : Int := if f.isUnsigned then 0 else -(2 ^ (f.width - 1))
    let hi : Int := if f.isUnsigned then 2 ^ f.width - 1 else 2 ^ (f.width - 1) - 1
    let sumTo (q : Nat) : FRes :=
      let v := (((List.range q).filter (fun p => (k.act x).getLsbD (p / n))).map (fun p => f.intOf (k.el x a (p / n) (p % n)))).sum
      { bits := (BitVec.ofInt f.width (max lo (min hi v))).toNat, flags := if v < lo ∨ hi < v then fSAT else 0#9 }
    let plus (level i : Nat) (p q : FRes) : FRes :=
      let r := f.deliver (k.rctx i level) (FVal.add k.rmode (f.decode p.bits) (f.decode q.bits))
      { bits := r.bits, flags := p.flags ||| q.flags ||| r.flags, stoch := p.stoch || q.stoch || r.stoch }
    let one (i e : Nat) : FRes := { bits := k.el x a i e, flags := 0#9 }
    let leaf (i : Nat) : FRes :=
      if (k.act x).getLsbD i = false then { bits := f.signBits true, flags := 0#9 }
      else if n = 1 then one i 0 else plus 0 i (one i 0) (one i 1)
    k.Calm →
    (s.Ready x (shV setIn 2) → ∃ j : Core, exec (.vscan x d a) s = .next (s.done x (shV setIn 2) j) ∧
      k.DidElems j x d (fun i e => sumTo (i * n + e + 1))) ∧
    (s.Ready x (shV setAll 2) →
      (∃ j : Core, exec (.vrsum x d a) s = .next (s.done x (shV setAll 2) j) ∧
        k.DidElems j x d (fun _ _ => if f.isInt then sumTo (64 * n) else treeOf plus leaf 6 0)) ∧
      (∀ max : Bool, ∃ (j : Core) (r : FRes),
        exec (if max then .vrmax x d a else .vrmin x d a) s = .next (s.done x (shV setAll 2) j) ∧ k.DidElems j x d (fun _ _ => r) ∧
        r.stoch = false ∧ (f.isInt = true → r.flags = 0#9) ∧
        ((∀ i e, k.Active x i e → k.ev x a i e ≠ .nan) → (∃ i e, k.Active x i e) → r.flags = 0#9) ∧
        (∀ i e, k.Active x i e →
          ((∀ i e, k.Active x i e → k.ev x a i e = .nan) → r.bits = f.nanBits ∧ r.flags = fNANR) ∧
          (k.ev x a i e ≠ .nan →
            (∃ i' e', k.Active x i' e' ∧ r.bits = k.el x a i' e' ∧ k.ev x a i' e' ≠ .nan) ∧
            (if max then FVal.lt true (f.decode r.bits) (k.ev x a i e) else FVal.lt true (k.ev x a i e) (f.decode r.bits)) = false))))

/-- Conversions (R151, R152, R139) where no trap follows: element j of the wide register is the conversion of stream element pE + j of the narrow one, or the other way; each source of an active lane is scaled, rounded once and fed to the named AMAX; the measuring form only feeds it. Completes: VCVTW, VCVTN. -/
def Obligations.ConversionsMoveStreamElements : Prop :=
  ∀ (s : State) (x : Issue) (d a w : Reg) (c1 c2 : Byte), let k := s.core x.core
    let f := laneFmt x
    let nf := codeFmt c1.toNat
    let n := nf.perSlot
    let part := (c2.extractLsb' 0 3).toNat
    let p := (c2.extractLsb' 3 2).toNat
    let base := part * (64 * f.perSlot)
    let scale : Int := if c2.getLsbD 6 then max (-254) (min 254 ((k.getW w).setWidth 9).toInt) else 0
    let active := (List.range (64 * f.perSlot)).filter (fun j => (k.act x).getLsbD (j / f.perSlot))
    let narrow (j : Nat) : FVal := nf.decode (nf.elem (lane (k.getV a) ((base + j) / n)) ((base + j) % n))
    let wide (j : Nat) : FVal := k.ev x a (j / f.perSlot) (j % f.perSlot)
    let fed (src : Nat → FVal) : Core := k.setAmax p ((active.map src).foldl amaxFeed (k.getAmax p))
    let hw : Shape := { shV setAll 5 with bad := cvtBad x false c1 c2 2 }
    let hn : Shape := { shV setAll 5 with bad := cvtBad x true c1 c2 2 }
    k.Calm →
    (s.Ready x hw →
      (c2.getLsbD 5 = true → exec (.vcvtw x d a c1 c2 w) s = .next (s.done x hw (fed narrow))) ∧
      (c2.getLsbD 5 = false → ∃ j : Core, exec (.vcvtw x d a c1 c2 w) s = .next (s.done x hw j) ∧
        (fed narrow).DidElems j x d (fun i e => f.convertFrom nf (k.rctx i e) ((narrow (i * f.perSlot + e)).scale scale)))) ∧
    (s.Ready x hn →
      (c2.getLsbD 5 = true → exec (.vcvtn x d a c1 c2 w) s = .next (s.done x hn (fed wide))) ∧
      (c2.getLsbD 5 = false → ∃ j : Core, exec (.vcvtn x d a c1 c2 w) s = .next (s.done x hn j) ∧
        (fed wide).DidStream j d nf (fun q =>
          if base ≤ q ∧ q < base + 64 * f.perSlot then
            let i := q - base
            if (k.act x).getLsbD (i / f.perSlot) then
              some (nf.convertFrom f (k.rctx (q / n) (q % n)) ((wide i).scale scale))
            else if zeroing x then some { bits := 0, flags := 0#9 } else none
          else none)))

/-- Microscaling and scale choice (R153, R154, R140) where no trap follows: VMXQ writes two blocks of 32 elements at one scale each and both scale bytes; VSCHOOSE takes the exponent from AMAX, or the initial scale with INIT and ISC when AMAX has no history, and clears AMAX. Completes: VMXQ, VSCHOOSE. -/
def Obligations.ScalesComeFromBlocksAndAmax : Prop :=
  ∀ (s : State) (x : Issue) (d w a : Reg) (c1 c2 : Byte), let k := s.core x.core
    let nf := codeFmt c1.toNat
    let n := nf.perSlot
    let p := (c2.extractLsb' 3 2).toNat
    let am := k.getAmax p
    (let base := (c2.extractLsb' 0 3).toNat * 64
     let src (i : Nat) : FVal := NumFmt.f36.decode (lane (k.getV a) i).toNat
     let active := (List.range 64).filter (fun i => (k.act x).getLsbD i)
     let scale (b : Nat) : Option Int := mxScale nf ((active.filter (fun i => i / 32 = b)).map src)
     let byte (b : Nat) : Nat := match scale b with | some e => (e + 127).toNat | none => 255
     let h : Shape := { shV [0] 5 with bad :=
       if ([1, 2, 5, 6, 7, 8].contains c1.toNat) = false then some 3
       else if 32 ≤ c2.toNat ∨ vpipes ≤ c2Amax c2 ∨ (codeFmt c1.toNat).perSlot ≤ c2Part c2 then some 4 else none }
     k.Calm → s.Ready x h →
      ∃ j : Core, exec (.vmxq x d w a c1 c2) s = .next (s.done x h (j.setW w (word (byte 0 + byte 1 * 256)))) ∧
        (k.setAmax p ((active.map src).foldl amaxFeed am)).DidStream j d nf (fun q =>
          if base ≤ q ∧ q < base + 64 then
            let i := q - base
            if (k.act x).getLsbD i then
              match scale (i / 32) with
              | some e => some (mxElem nf (k.rctx (q / n) (q % n)) e (src i))
              | none => some { bits := 0, flags := if src i = .nan then fNANR else if src i = .inf true ∨ src i = .inf false then fINFR else 0#9 }
            else if zeroing x then some { bits := 0, flags := 0#9 } else none
          else none)) ∧
    (let h : Shape := { shVM 4 with bad := if c1 = 13#8 ∨ 14 < c1.toNat then some 2 else if 32 ≤ c2.toNat ∨ vpipes ≤ fld c2 3 2 then some 3 else none }
     let m := (c2.extractLsb' 0 3).toNat
     let cleared := k.setAmax p 0#36
     let nonfin := if am.getLsbD 34 then 2 ^ 10 else 0
     s.Ready x h →
      (am.getLsbD 35 = true → exec (.vschoose x w a c1 c2) s = .next (s.done x h (cleared.setW w
        (word ((BitVec.ofInt 9 (if am.toNat % 2 ^ 34 = 0 then 0 else max (-254) (min 254 (log2Ratio nf.largest (amaxVal am) - m)))).toNat + nonfin))))) ∧
      (am.getLsbD 35 = false → exec (.vschoose x w a c1 c2) s =
        .next (s.done x h (({ cleared with aflags := k.aflags ||| 0x100#36 } : Core).setW w
          (word (((k.getW a).extractLsb' 0 9).toNat + 2 ^ 9 + nonfin))))))

/-- Vector loads (R158, R159): when every active lane's slot lies in readable memory of this device, each active lane of vd takes its image and nothing else changes; an FP6 lane takes the half of the shared byte that is its own. Completes: VLD, VLDS, VLDN, VGATHER. Vector stores (R158, R159): when every active lane's slot lies in writable memory of this device, the images of the active lanes are written in lane order, so that of two lanes at one address the higher stays; an FP6 lane writes only its half of the shared byte; nothing else changes. Completes: VST, VSTS, VSTN, VSCATTER. -/
def Obligations.VectorMemoryMovesActiveLanes : Prop :=
  (∀ (s : State) (x : Issue) (d r i : Reg) (a : AReg) (m : Imm) (c1 : Byte) (ls : List (List Piece)), let k := s.core x.core
    let active := (List.range 64).filter (fun i => (k.act x).getLsbD i)
    let gives (c : Instr) (h : Shape) (v : VecAcc) : Prop :=
      s.Ready x h → s.LanesHere v active → s.Placed k.pl .read (active.map v.slot) ls →
      ∃ (j : Core) (f : Nat → Word) (t : State), exec c s = .next t ∧ (s.done x h j).Loaded t ∧ k.WroteV j x d f ∧
        ∀ (n i : Nat) (ps : List Piece), active[n]? = some i → ls[n]? = some ps →
          let b : List Byte := ps.flatMap (fun p => s.bytesAt p.pa p.len)
          f i = if isFp6 v.code then BitVec.ofNat 36 (natOfBytes b / (if i % 2 = 0 then 1 else 16)) else slotOfBytes v.code b
    gives (.vld x d a m) (shVMem m 0) (contiguous 0 3 (k.getA a + immAddr m)) ∧
    gives (.vlds x d a r) (shV setAll 3) (strided (k.getA a) (k.getW r)) ∧
    gives (.vldn x d a m c1) (shVNar m c1) (contiguous c1.toNat 2 (k.getA a + immAddr m)) ∧
    ((k.getA a).toNat % 8 = 0 → gives (.vgather x d a i) (shV setAll 3) (indexed (k.getA a) (k.getV i)))) ∧
  (∀ (s : State) (x : Issue) (d r i : Reg) (a : AReg) (m : Imm) (c1 : Byte) (ls : List (List Piece)) (key : Nat → Nat), let k := s.core x.core
    let active := (List.range 64).filter (fun i => (k.act x).getLsbD i)
    let images (v : VecAcc) : List (List MByte) := active.map (fun i => laneBytes v.code i (lane (k.getV d) i))
    let puts (c : Instr) (h : Shape) (v : VecAcc) : Prop :=
      s.Ready x h → s.LanesHere v active → s.Placed k.pl .write (active.map v.slot) ls →
      (∀ ps, ps ∈ ls → ∀ p, p ∈ ps → s.cellKey p.pa = some (key p.pa)) →
      let ws := ((ls.zip (images v)).flatMap (fun z => giveBytes z.1 z.2)).map (fun w => (key w.1.pa, w.2))
      ∃ t, exec c s = .next t ∧ (s.done x h k).StoredBy t (fun n => bitsAt ws (s.byteAt n) n)
    puts (.vst x d a m) (shVMem m 0) (contiguous 0 3 (k.getA a + immAddr m)) ∧
    puts (.vsts x d a r) (shV setAll 3) (strided (k.getA a) (k.getW r)) ∧
    puts (.vstn x d a m c1) (shVNar m c1) (contiguous c1.toNat 2 (k.getA a + immAddr m)) ∧
    ((k.getA a).toNat % 8 = 0 → puts (.vscatter x d a i) (shV setAll 3) (indexed (k.getA a) (k.getV i))))

/-! ## Plates and the matrix array -/

/-- Plate configuration, release and flags (R163, R166, R167, R174) after the array work in flight: the plate named changes as said, its reuse latches drop, PDIRTY is set, every other plate stays; PLCFG takes shape fault 0x07 with the lowest reason for an extent or format it refuses. Completes: PLCFG, PLGET, PLREL, PLRELM, PLCLRF. Row moves (R177) after the array work in flight: PLMVR copies a row of a plate that holds data into lanes, zero past its slots; PLMRV writes the slots of a row from active lanes, makes the plate VALID and first zeroes one that was EMPTY; a row outside the plate takes cause 0x07 with reason 5, a source or destination in the wrong state 0x08. Completes: PLMVR, PLMRV. -/
def Obligations.PlatesAreConfiguredAndMoved : Prop :=
  (∀ (s : State) (x : Issue) (p r d : Reg) (sel : Byte), let k := (s.core x.core).drain
    let w := k.getW r
    let q := k.plate p.toNat
    let empty (q : Plate) : Plate := { q with status := q.status &&& ~~~ 0x103FF#36 }
    let sets (h : Shape) (c : Instr) (touched : Nat → Prop) (f : Nat → Plate) : Prop := ∃ j : Core,
      exec c s = .next (s.done x h j) ∧ j = { k with plates := j.plates, latchA := j.latchA, latchB := j.latchB, psw := j.psw } ∧
      (∀ n, (touched n → j.plate n = f n) ∧ (¬ touched n → j.plate n = k.plate n)) ∧
      (∀ i, i ≠ 16 → j.psw.getLsbD i = k.psw.getLsbD i) ∧ ((∃ n, touched n) → j.psw.getLsbD 16 = true)
    (let h : Shape := { shP 2 with bad := plBad p 0 }
     let reason : Option Nat := if 64 ≤ (w.extractLsb' 0 8).toNat then some 0 else if 64 ≤ (w.extractLsb' 8 8).toNat then some 1
       else if 15 ≤ (w.extractLsb' 16 5).toNat then some 2 else none
     s.Ready x h →
      (reason = none → sets h (.plcfg x p r) (fun n => n = p.toNat) (fun _ => { empty q with cfg := w &&& 0x1FFFFF#36 })) ∧
      (∀ e, reason = some e → exec (.plcfg x p r) s = .next ((s.begin x h).trapped x.core 0x07 (word (p.toNat + e * 128)) 0#72))) ∧
    (let h : Shape := { shP 3 with bad := firstBad [plBad p 1, need (decide (sel.toNat ≤ 2)) 2] }
     s.Ready x h → sel.toNat ≤ 2 ∧
      exec (.plget x d p sel) s = .next (s.done x h (k.setW d (if sel = 0#8 then q.cfg else if sel = 1#8 then q.status else q.fpos)))) ∧
    (let h : Shape := { shP 1 with bad := plBad p 0 }
     s.Ready x h →
      sets h (.plrel x p) (fun n => n = p.toNat) (fun _ => empty q) ∧
      exec (.plclrf x p) s = .next (s.done x h (k.setPlate p.toNat { q with status := q.status &&& ~~~ 0xFC00#36, fpos := 0#36 }))) ∧
    (s.Ready x (shP 1) → sets (shP 1) (.plrelm x r) (fun n => n < 16 ∧ w.getLsbD n = true) (fun n => empty (k.plate n)))) ∧
  (∀ (s : State) (x : Issue) (p v r : Reg), let k := (s.core x.core).drain
    let q := k.plate p.toNat
    let row := (k.getW r).toNat
    let state := q.status.toNat % 4
    let old (m i : Nat) : Word := if state = 0 then 0#36 else q.slot m i
    (let h : Shape := { shP 3 with maskOk := true, bad := plBad p 1 }
     s.Ready x h →
      (row < q.nrows → state ≠ 0 → state ≠ 2 → ∃ j : Core, exec (.plmvr x v p r) s = .next (s.done x h j) ∧
        k.WroteLanes j v (k.masked x v (fun i => if i < q.nslots then q.slot row i else 0#36)) ∧
        j = { k with v := j.v, psw := j.psw, latchA := j.latchA, latchB := j.latchB }) ∧
      (q.nrows ≤ row → exec (.plmvr x v p r) s = .next ((s.begin x h).trapped x.core 0x07 (word (p.toNat + 5 * 128)) 0#72)) ∧
      (row < q.nrows → state = 0 → exec (.plmvr x v p r) s = .next ((s.begin x h).trapped x.core 0x08 (word p.toNat) 0#72)) ∧
      (row < q.nrows → state = 2 → exec (.plmvr x v p r) s = .next ((s.begin x h).trapped x.core 0x08 (word (p.toNat + 128)) 0#72))) ∧
    (let h : Shape := { shP 3 with maskOk := true, bad := plBad p 0 }
     s.Ready x h →
      (row < q.nrows → state ≠ 2 → ∃ j : Core, exec (.plmrv x p v r) s = .next (s.done x h j) ∧
        j = { k with plates := j.plates, psw := j.psw, latchA := j.latchA, latchB := j.latchB } ∧
        (∀ n, n ≠ p.toNat → j.plate n = k.plate n) ∧ (j.plate p.toNat).cfg = q.cfg ∧ (j.plate p.toNat).fpos = q.fpos ∧
        (j.plate p.toNat).status = (q.status &&& ~~~ 3#36) ||| 1#36 ∧ j.psw = k.psw ||| 0x10000#36 ∧
        ∀ m i, i < 64 → (j.plate p.toNat).slot m i =
          if m = row ∧ i < q.nslots then
            if (k.act x).getLsbD i then lane (k.getV v) i else if zeroing x then 0#36 else old m i
          else old m i) ∧
      (q.nrows ≤ row → exec (.plmrv x p v r) s = .next ((s.begin x h).trapped x.core 0x07 (word (p.toNat + 5 * 128)) 0#72)) ∧
      (row < q.nrows → state = 2 → exec (.plmrv x p v r) s = .next ((s.begin x h).trapped x.core 0x08 (word (p.toNat + 128)) 0#72))))

/-- Plate conversion and quantisation (R175, R176) with arithmetic traps off, after the array work in flight: when the model's checks of plates and extents pass, every element of the destination's extent is the scaled conversion of the source's element of the same row and position, or an element of its Microscaling block with the block's scale in the second destination; the destinations are VALID, their other slots and the other plates stay, and the sources feed AMAX. Each row takes one draw count (R130). Completes: PLCVT, PLMXQ. -/
def Obligations.PlatesConvertElementByElement : Prop :=
  ∀ (s : State) (x : Issue) (d e a r : Reg) (c2 : Byte), let k := (s.core x.core).drain
    let pd := k.plate d.toNat; let pe := k.plate e.toNat; let pa := k.plate a.toNat
    let fd := codeFmt pd.fmt; let fa := codeFmt pa.fmt
    let rows := (psoExtent x pd).1; let slots := (psoExtent x pd).2
    let n := slots * fd.perSlot
    let amax := (c2.extractLsb' 3 2).toNat
    let scale : Int := if c2.getLsbD 6 then max (-254) (min 254 ((k.getW r).setWidth 9).toInt) else 0
    let src (m j : Nat) : FVal := fa.decode (pa.elem fa m j)
    let fed (l : List FVal) : Word := l.foldl amaxFeed (k.getAmax amax)
    let all (cols : Nat) : List FVal := (List.range rows).flatMap (fun m => (List.range cols).map (src m))
    let ctx (drawn : Nat → Word) (m j : Nat) : RCtx :=
      { rmode := k.rmode, ovmode := k.ovmode,
        draw := if k.rmode = 4 then stochDraw k.seed (drawn m) (j / fd.perSlot) (j % fd.perSlot) else 0 }
    let counts (drawn : Nat → Word) (res : Nat → Nat → FRes) : Prop := drawn 0 = k.getMreg 0x2F ∧ ∀ m, m < rows →
      ((∃ j, j < n ∧ (res m j).stoch = true) → drawn (m + 1) = drawn m + 1#36) ∧
      ((∀ j, j < n → (res m j).stoch = false) → drawn (m + 1) = drawn m)
    let wrote (j : Core) (t : Reg) (cells : Nat → Nat → Word → Word) : Prop := ∀ m i, i < 64 →
      (j.plate t.toNat).slot m i = cells m i ((k.plate t.toNat).slot m i)
    let valid (j : Core) (t : Reg) : Prop := (j.plate t.toNat).cfg = (k.plate t.toNat).cfg ∧ (j.plate t.toNat).state = 1
    let rest (j : Core) : Prop := j =
      { k with plates := j.plates, psw := k.psw ||| 0x10000#36, latchA := j.latchA, latchB := j.latchB,
               amax := j.amax, aflags := j.aflags, afpos := j.afpos, mreg := j.mreg } ∧ ∀ i, i ≠ amax → j.getAmax i = k.getAmax i
    let reused : Core := k.reuse x (some (a.toNat, pa.nrows, pa.nslots)) none
    k.atrap = false →
    (let h : Shape := 
      { shP 4 with psoOk := true,
                   bad := firstBad [plBad d 0, plBad a 1, need (fld c2 0 3 == 0 && !bitAt c2 7 && decide (c2Amax c2 < vpipes)) 2] }
     s.Ready x h → k.plcvtChk x d.toNat a.toNat = none →
      (c2.getLsbD 5 = true → exec (.plcvt x d a c2 r) s = .next (s.done x h (reused.setAmax amax (fed (all n))))) ∧
      (c2.getLsbD 5 = false → ∃ (j : Core) (drawn : Nat → Word),
        let res (m i : Nat) : FRes := fd.convertFrom fa (ctx drawn m i) ((src m i).scale scale)
        exec (.plcvt x d a c2 r) s = .next (s.done x h j) ∧ counts drawn res ∧ j.getMreg 0x2F = drawn rows ∧
        wrote j d (fun m i w => if m < rows ∧ i < slots then
          fd.pack ((List.range fd.perSlot).map (fun c => (res m (i * fd.perSlot + c)).bits)) else w) ∧
        valid j d ∧ (∀ t, t ≠ d.toNat → j.plate t = k.plate t) ∧ rest j ∧ j.getAmax amax = fed (all n) ∧
        k.Raised j (fun b => ∃ m i, m < rows ∧ i < n ∧ (res m i).flags.getLsbD b = true))) ∧
    (let h : Shape := 
      { shP 4 with psoOk := true,
                   bad := firstBad [plBad d 0, plBad e 1, plBad a 2, need (fld c2 0 3 == 0 && fld c2 5 3 == 0 && decide (c2Amax c2 < vpipes)) 3] }
     let block (m i : Nat) : Option Int := mxScale fd ((List.range 32).map (fun c => src m (i / 32 * 32 + c)))
     s.Ready x h → k.plmxqChk x d.toNat e.toNat a.toNat = none →
      ∃ (j : Core) (drawn : Nat → Word),
        let res (m i : Nat) : FRes := match block m i with
          | some t => mxElem fd (ctx drawn m i) t (src m i)
          | none => { bits := 0, flags := if src m i = .nan then fNANR else if src m i = .inf true ∨ src m i = .inf false then fINFR else 0#9 }
        let byte (m b : Nat) : Nat := if b < n / 32 then (match block m (32 * b) with | some t => (t + 127).toNat | none => 255) else 0
        exec (.plmxq x d e a c2) s = .next (s.done x h j) ∧ counts drawn res ∧ j.getMreg 0x2F = drawn rows ∧
        wrote j d (fun m i w => if m < rows ∧ i < slots then
          fd.pack ((List.range fd.perSlot).map (fun c => (res m (i * fd.perSlot + c)).bits)) else w) ∧
        wrote j e (fun m i w => if m < rows ∧ i < pe.nslots then
          word (byte m (4 * i) + byte m (4 * i + 1) * 2 ^ 8 + byte m (4 * i + 2) * 2 ^ 16 + byte m (4 * i + 3) * 2 ^ 24) else w) ∧
        valid j d ∧ valid j e ∧ (∀ t, t ≠ d.toNat → t ≠ e.toNat → j.plate t = k.plate t) ∧ rest j ∧ j.getAmax amax = fed (all n) ∧
        k.Raised j (fun b => ∃ m i, m < rows ∧ i < n ∧ (res m i).flags.getLsbD b = true))

/-- Plate loads and stores (R170–R173), after the array work in flight: a PLD whose extent fits begins a load and blocks its core with the plate LOADING; each arriving row is written whole and counted; the last makes the plate VALID and the core goes on; PST writes the row images of the extent and nothing else. Completes: PLD, PST, PLD_ROW_WRITE. -/
def Obligations.PlatesLoadRowByRowAndStore : Prop :=
  ∀ (s : State) (x : Issue) (p r : Reg) (a : AReg) (c : Nat) (o : PldOp) (ls : List (List Piece)) (key : Nat → Nat), let k := (s.core x.core).drain
    let q := k.plate p.toNat
    let base := k.getA a
    let stride := (k.getW r).signExtend 72
    let code := imageFmt x q
    let rows := (psoExtent x q).1; let slots := (psoExtent x q).2
    let fits := rows ≤ q.nrows ∧ slots ≤ q.nslots ∧ rowChk .read code rows slots base stride = none
    (s.Ready x (shRow p) → fits → q.state ≠ 2 → ∃ j : Core, exec (.pld x p a r) s = .next (s.setCore x.core j) ∧
      j = { k.dropped x with
              plates := j.plates, psw := k.psw ||| 0x10000#36
              pld := some ⟨p.toNat, base, stride, rows, slots, code, k.pc, k.after (shRow p) x⟩ } ∧
      (∀ t, t ≠ p.toNat → j.plate t = k.plate t) ∧ (j.plate p.toNat).state = 2 ∧ (j.plate p.toNat).rowsDone = 0 ∧
      (j.plate p.toNat).zfill = (q.state == 0) ∧ (j.plate p.toNat).cfg = q.cfg ∧
      ∀ m i, i < 64 → (j.plate p.toNat).slot m i = if q.state = 0 then 0#36 else q.slot m i) ∧
    (let k := s.core c
     let q := k.plate o.plate
     let m := q.rowsDone
     let at_ := o.base + o.stride * BitVec.ofNat 72 m
     let l := rowSlots o.fmt o.slots at_
     k.pld = some o → s.live c = true → s.remoteWait c = false → k.pick = none → k.sstep = false → k.run ≠ .atReset →
     badTop at_ = false → s.onDevice at_ = true → s.Placed k.pl .read l ls → q.state = 2 → m < o.rows → o.rows ≤ 64 → o.slots ≤ 64 →
      ∃ (j : Core) (t : State), exec (.pldRowWrite c) s = .next t ∧ (s.setCore c j).Loaded t ∧
        (∀ n, n ≠ o.plate → j.plate n = k.plate n) ∧ (j.plate o.plate).cfg = q.cfg ∧ (j.plate o.plate).rowsDone = m + 1 ∧
        (j.plate o.plate).state = (if m + 1 = o.rows then 1 else 2) ∧
        (∀ n i, i < 64 → (j.plate o.plate).slot n i =
          if n = m ∧ i < o.slots then (rowWords o.fmt o.slots (ls.flatten.flatMap (fun p => s.bytesAt p.pa p.len))).getD i 0#36 else q.slot n i) ∧
        (if m + 1 = o.rows then j.pld = none ∧ j.pc = o.next else j.pld = some o ∧ j.pc = k.pc) ∧
        j = { k with plates := j.plates, psw := k.psw ||| 0x10000#36, latchA := j.latchA, latchB := j.latchB, pld := j.pld, pc := j.pc }) ∧
    (let row (m : Nat) : List Byte := rowBytes code ((q.row m).take slots)
     let parts := (List.range rows).flatMap (fun m => let l := rowSlots code slots (base + stride * BitVec.ofNat 72 m)
       let size := (l.headD { addr := base, len := 8 }).len
       l.zipIdx.map (fun z => (z.1, whole ((((row m).drop (z.2 * size)).take z.1.len)))))
     s.Ready x (shRow p) → rows ≤ q.nrows → slots ≤ q.nslots → rowChk .write code rows slots base stride = none →
     q.state = 1 → badTop base = false → s.onDevice base = true → s.Placed k.pl .write (parts.map Prod.fst) ls →
     (∀ ps, ps ∈ ls → ∀ p, p ∈ ps → s.cellKey p.pa = some (key p.pa)) →
      let ws := ((ls.zip (parts.map Prod.snd)).flatMap (fun z => giveBytes z.1 z.2)).map (fun w => (key w.1.pa, w.2))
      ∃ (j : Core) (t : State), exec (.pst x p a r) s = .next t ∧ j = { k with latchA := j.latchA, latchB := j.latchB } ∧
        (s.done x (shRow p) j).StoredBy t (fun n => bitsAt ws (s.byteAt n) n))

/-- Images (R184, R207) after the array work in flight: PLSV and ARSV store the image's words at a multiple of 64; PLRS and ARRS take a whole well-formed image from memory; and the plate that PLRS makes of a saved image has the saved configuration, status, first position and every row that the image holds. Completes: PLSV, PLRS, ARSV, ARRS. -/
def Obligations.ImagesSaveAndRestore : Prop :=
  ∀ (s : State) (x : Issue) (p : Reg) (a : AReg) (ls : List (List Piece)) (key : Nat → Nat), let k := (s.core x.core).drain
    let q := k.plate p.toNat
    let base := k.getA a
    let hp : Shape := { shP 2 with bad := plBad p 0 }
    let inMemory (need : Need) (n : Nat) : Prop := base.toNat % 64 = 0 ∧ badTop base = false ∧ s.onDevice base = true ∧
      straySlot base (spanSlots base (8 * n) 8) = none ∧ s.Placed k.pl need (spanSlots base (8 * n) 8) ls
    let words : List Word := ls.map (fun ps => wordOfBytes (ps.flatMap (fun p => s.bytesAt p.pa p.len)))
    let stores (h : Shape) (c : Instr) (ws : List Word) : Prop :=
      inMemory .write ws.length → (∀ ps, ps ∈ ls → ∀ p, p ∈ ps → s.cellKey p.pa = some (key p.pa)) →
      let w := ((ls.zip (ws.map (fun w => whole (wordBytes w)))).flatMap (fun z => giveBytes z.1 z.2)).map (fun w => (key w.1.pa, w.2))
      ∃ (j : Core) (t : State), exec c s = .next t ∧ j = { k with latchA := j.latchA, latchB := j.latchB } ∧ (s.done x h j).StoredBy t (fun n => bitsAt w (s.byteAt n) n)
    (s.Ready x hp → stores hp (.plsv x p a) q.image) ∧
    (s.Ready x (shP 1) → stores (shP 1) (.arsv x a) k.arrImage) ∧
    (s.Ready x hp → (headerPlate words).malformed = false → inMemory .read (8 + (headerPlate words).imageRows * (headerPlate words).nslots) →
      ∃ t, exec (.plrs x p a) s = .next t ∧ (s.done x hp (k.plrs p.toNat words)).Loaded t) ∧
    (s.Ready x (shP 1) → arrMalformed words = false → inMemory .read (arrWords words) →
      ∃ t, exec (.arrs x a) s = .next t ∧ (s.done x (shP 1) (k.arrs words)).Loaded t) ∧
    (let j := (k.plrs p.toNat q.image).plate p.toNat
     j.cfg = q.cfg ∧ j.status = q.status ∧ j.fpos = q.fpos ∧
      (q.nslots ≤ 64 → (∀ m, m < q.imageRows → (q.row m).length = 64) →
        ∀ m i, m < q.imageRows → i < q.nslots → j.slot m i = q.slot m i))

/-- Array instructions (R189–R196, R206): a load or pass whose plates, sets and extents pass the model's checks of R202 goes in flight behind earlier work, of which its partition then has fewer than four, with its operands and PSW.OVMODE; ARGET, ARSET and ARINV, after the work in flight, read ARR_STATUS or a set, write PART, the flags, TRAPEN and SDIRTY, and invalidate the sets of the partitions named. Completes: ARLDS, ARLDSX, ARLDSP, MMA, MMAX, MMACV, ARGET, ARSET, ARINV. Array work completes in order (R186–R193, R204): a finished load fills its partition's background set and marks it valid; a finished pass swaps the sets when asked, and every element of its accumulator plate is, for an integer plate, the exact sum of all products, with the old element when accumulating, clamped once; nothing but plates, sets, flags, latches and the trap that TRAPEN asks for changes. Completes: MMA, MMAX, MMACV, STATIONARY_LOAD_COMPLETE, PASS_COMPLETE. -/
def Obligations.ArrayWorkIsInOrderAndExact : Prop :=
  (∀ (s : State) (x : Issue) (p e d r g w : Reg) (c sel : Byte), let k := s.core x.core
    let lc := k.roomFor c.toNat
    let part := (k.getW r).toNat / 2 ^ 12 % 4
    let pc := k.roomFor part
    let flies (b : Core) (h : Shape) (i : Instr) (o : ArrOp) : Prop := (b.arrQ.filter (fun q => q.part == o.part)).length < 4 ∧
      ∃ j : Core, exec i s = .next (s.done x h j) ∧ j = { b with arrQ := b.arrQ ++ [o], latchA := j.latchA, latchB := j.latchB }
    let load (kind : ArrKind) (t : Reg) : ArrOp :=
      let ext := psoExtent x (lc.drain.plate p.toNat)
      { kind := kind, part := c.toNat, p0 := p.toNat, p1 := t.toNat, rows := ext.1, slots := ext.2, ovmode := lc.ovmode, level := lc.pl }
    let pass (kind : ArrKind) (t g w : Reg) : ArrOp :=
      let ext := psoExtent x (pc.drain.plate e.toNat)
      { kind := kind, part := part, p0 := p.toNat, p1 := e.toNat, p2 := t.toNat,
        rows := ext.1, slots := ext.2, ws := k.getW r, wg := k.getW g, wk := k.getW w, ovmode := pc.ovmode, level := pc.pl }
    (s.Ready x (shLoad [p] c) → lc.drain.loadChk x .ld p.toNat p.toNat c.toNat = none → flies lc (shLoad [p] c) (.arlds x p c) (load .ld p)) ∧
    (s.Ready x (shLoad [p, e] c) →
      (lc.drain.loadChk x .ldx p.toNat e.toNat c.toNat = none → flies lc (shLoad [p, e] c) (.arldsx x p e c) (load .ldx e)) ∧
      (lc.drain.loadChk x .ldsp p.toNat e.toNat c.toNat = none → flies lc (shLoad [p, e] c) (.arldsp x p e c) (load .ldsp e))) ∧
    (s.Ready x (shPass [p, e] 1 r) → pc.drain.passChk x .mma p.toNat e.toNat e.toNat (k.getW r) 0#36 0#36 = none →
      flies pc (shPass [p, e] 1 r) (.mma x p e r) (pass .mma e 0#5 0#5)) ∧
    (s.Ready x (shPass [p, e, d] 1 r) → pc.drain.passChk x .mmax p.toNat e.toNat d.toNat (k.getW r) 0#36 0#36 = none →
      flies pc (shPass [p, e, d] 1 r) (.mmax x p e d r) (pass .mmax d 0#5 0#5)) ∧
    (s.Ready x (shPass [p, e] 3 r) → pc.drain.passChk x .mmacv p.toNat e.toNat e.toNat (k.getW r) (k.getW g) (k.getW w) = none →
      flies pc (shPass [p, e] 3 r) (.mmacv x p e r g w) (pass .mmacv e g w)) ∧
    (let k := k.drain;
      (let h : Shape := { shP 2 with bad := need (decide (sel.toNat ≤ 8)) 1 }
       s.Ready x h → exec (.arget x d sel) s = .next (s.done x h (k.setW d (if sel = 0#8 then k.arrStatus else (k.aset sel.toNat).info)))) ∧
      (s.Ready x (shP 1) → ∃ j : Core, exec (.arset x r) s = .next (s.done x (shP 1) j) ∧ j = { k with arr := j.arr, sets := j.sets } ∧
        (let v := k.getW r
         let part := if v.toNat % 4 = 3 then k.part else v.toNat % 4
         j.part = part ∧ (∀ i, 15 ≤ i → i < 26 → j.arr.getLsbD i = v.getLsbD i) ∧
         ∀ n, 1 ≤ n → n ≤ 8 → if part = k.part then j.aset n = k.aset n else j.aset n = (k.aset n).invalidate)) ∧
      (let h : Shape := { shP 1 with bad := need (decide (c.toNat < 16)) 0 }
       s.Ready x h → ∃ j : Core, exec (.arinv x c) s = .next (s.done x h j) ∧ j = { k with sets := j.sets } ∧
        ∀ n, 1 ≤ n → n ≤ 8 → if c.getLsbD ((n - 1) / 2) then j.aset n = (k.aset n).invalidate else j.aset n = k.aset n))) ∧
  (∀ (s : State) (c : Nat) (o : ArrOp) (rest : List ArrOp), let k := s.core c
    k.arrQ = o :: rest →
    (o.kind = .ld ∨ o.kind = .ldx ∨ o.kind = .ldsp →
      exec (.passComplete c) s = .next (s.setCore c k) ∧
      ∃ j : Core, exec (.stationaryLoadComplete c) s = .next (s.setCore c j) ∧ j = { k with arrQ := rest, sets := j.sets, arr := k.arr ||| 0x2000000#36 } ∧
        let b := j.aset (2 + 2 * o.part)
        (∀ n, n ≠ 2 + 2 * o.part → j.aset n = k.aset n) ∧
        b.info = word (o.rows - 1 + (o.slots - 1) * 2 ^ 8 + (k.plate o.p0).fmt * 2 ^ 16 + (if o.kind = .ldsp then 2 ^ 21 else 0) +
          (if o.kind = .ldx then 2 ^ 22 else 0) + 2 ^ 23 + o.p0 * 2 ^ 24) ∧
        ∀ m i, m < o.rows → i < o.slots → o.slots ≤ 64 → ((k.plate o.p0).row m).length = 64 →
          (Tbl.get zeroRow b.slots m).getD i 0#36 = (k.plate o.p0).slot m i) ∧
    (o.kind = .mma ∨ o.kind = .mmax ∨ o.kind = .mmacv →
      exec (.stationaryLoadComplete c) s = .next (s.setCore c k) ∧
      ∃ j : Core, exec (.passComplete c) s = .next (s.setCore c j) ∧
        j = { k with arrQ := rest, sets := j.sets, arr := j.arr, plates := j.plates, latchA := j.latchA, latchB := j.latchB,
                     psw := k.psw ||| 0x10000#36, aflags := j.aflags, afpos := j.afpos, pTraps := j.pTraps } ∧
        (∀ n, n ≠ o.p0 → j.plate n = k.plate n) ∧ (j.plate o.p0).cfg = (k.plate o.p0).cfg ∧ (j.plate o.p0).state = 1 ∧
        (let swap := o.ws.getLsbD 14
         let f := 1 + 2 * o.part; let b := 2 + 2 * o.part
         j.aset f = (if swap then k.aset b else k.aset f) ∧ j.aset b = (if swap then k.aset f else k.aset b)) ∧
        (let set := j.aset (1 + 2 * o.part)
         let pa := k.plate o.p1
         let acc := o.ws.getLsbD 15
         (k.plate o.p0).fmt = 11 → set.sparse = false → o.kind = .mma → o.ws.getLsbD 16 = false →
         ∀ m n, m < (k.plate o.p0).nrows → n < set.n → n < 64 → (pa.row m).length = 64 → set.k = o.slots → o.slots ≤ 64 →
          let fa := codeFmt pa.fmt; let fw := codeFmt set.fmt
          let prod (i e : Nat) : Int := ((fa.decode (fa.elem (pa.slot m i) e)).mul
            (fw.decode (fw.elem ((Tbl.get zeroRow set.slots n).getD i 0#36) e))).v.scaled 0
          let sum := ((List.range o.slots).map (fun i => ((List.range fw.perSlot).map (prod i)).sum)).sum
          let old : Int := if acc ∧ (k.plate o.p0).state ≠ 0 then ((k.plate o.p0).slot m n).toInt else 0
          (j.plate o.p0).slot m n = BitVec.ofInt 36 (max (-(2 ^ 35)) (min (2 ^ 35 - 1) (old + sum))))))

/-! ## Ticks, schedules and pending exceptions -/

/-- The tick unit (R31–R45): a TICK counts and every core that runs samples the strobe (R53), with MISSED saturating while IN_TICK is set; a TICK_SYNC steps a free-running device to its tick number, and the eighth good one in a row locks it, but not while a schedule is active; a wrong number, an expired holdover or an unannounced period switch ends the lock; an announced period becomes active at its tick; a mode request takes effect, and fabric-locked mode waits for lock. Completes: TICK, HOLDOVER_EXPIRY, TICK_SYNC, PERIOD_SWITCH, TICK_MODE_CHANGE. Schedules and transmit slots (R47, R50, R51, R363): a start or stop whose tick has come takes effect, running slots end, and a start brings the deferred queue that waited for it; in fabric-locked mode a slot gives its port to the flow of its entry, with the entry's YIELD and KIND; the slot's end takes it back; with nothing waiting at the ports nothing else changes. Completes: SCHEDULE_START_AT_TICK, SCHEDULE_STOP_AT_TICK, SLOT_START, SLOT_END. -/
def Obligations.TicksAndSchedulesTakeEffect : Prop :=
  (∀ (s : State) (c n skew master depth period : Nat) (ann : Option (Nat × Word)) (at_ : Word),
    let st := s.ctlGet 0x08
    let k := s.core c
    let m := k.getMreg 0x11
    let unlocked (t : State) (mode : Nat) : Prop := t.ctlFld 0x08 0 2 = mode ∧ t.ctlFld 0x08 2 4 = 0 ∧ (t.ctlGet 0x50).getLsbD 1 = true ∧
      (t.ctlGet 0x200008).getLsbD 4 = false ∧ t.tickCount = s.tickCount
    (s.fab.seedDrop = false → s.remote = [] → ∃ t, exec .tick s = .next t ∧ t.tickCount = s.tickCount + 1#72 ∧
      (c < s.variant.cores → s.deaf c = false → let m' := (t.core c).getMreg 0x11
        if m.getLsbD 2 then (t.core c).pTick = k.pTick ∧ (m'.extractLsb' 5 8).toNat = min ((m.extractLsb' 5 8).toNat + 1) 255
        else (t.core c).pTick = true ∧ m'.getLsbD 1 = (m.getLsbD 0 || m.getLsbD 1) ∧ m'.getLsbD 0 = m.getLsbD 0)) ∧
    (st.getLsbD 4 = false → st.getLsbD 2 = true →
      (n ≠ s.now → ∃ t, exec (.tickSync n skew master depth period ann) s = .next t ∧ unlocked t (s.ctlFld 0x08 0 2)) ∧
      (n = s.now → skew ≤ s.ctlFld 0x00 10 8 → depth ≤ 28 → ∃ t, exec (.tickSync n skew master depth period ann) s = .next t ∧
        t.syncSeen = true ∧ t.syncPeriod = period ∧ t.ctlFld 0x08 6 8 = min skew 255 ∧ t.ctlFld 0x08 14 5 = depth ∧
        t.syncMaster = some (master % 2 ^ 14) ∧
        ∀ ns w, ann = some (ns, w) → t.ctlGet 0x20 = word (ns % 2 ^ 26 + 2 ^ 26) ∧ t.ctlGet 0x28 = w ∧ t.switchKnown = true)) ∧
    (st.getLsbD 4 = false → st.getLsbD 2 = false → s.ctlFld 0x00 0 2 = 2 → s.ctlFld 0x08 0 2 = 1 →
      (s.schedNow.isSome = true → s.syncStepped = false → ∃ t, exec (.tickSync n skew master depth period ann) s = .next t ∧ (t.ctlGet 0x08).getLsbD 5 = true ∧
        (t.ctlGet 0x08).getLsbD 2 = false ∧ t.tickCount = s.tickCount) ∧
      (s.schedNow = none → s.syncStepped = true → n = s.now → skew ≤ s.ctlFld 0x00 10 8 → s.syncGood = 7 →
        ∃ t, exec (.tickSync n skew master depth period ann) s = .next t ∧ (t.ctlGet 0x08).getLsbD 2 = true ∧
          (t.ctlGet 0x08).getLsbD 5 = false ∧ t.lockReady = true ∧ t.tickCount = s.tickCount) ∧
      (s.schedNow = none → s.syncStepped = false → n < 2 ^ 72 → ∃ t, exec (.tickSync n skew master depth period ann) s = .next t ∧
        t.now = n ∧ t.syncStepped = true ∧ t.syncPeriod = period ∧ t.syncGood = (if skew ≤ s.ctlFld 0x00 10 8 then 1 else 0))) ∧
    (s.ctlFld 0x08 0 2 = 2 → st.getLsbD 3 = true → s.ctlFld 0x00 2 8 ≤ s.ctlFld 0x08 19 8 →
      ∃ t, exec .holdoverExpiry s = .next t ∧ unlocked t 1) ∧
    (s.ctlFld 0x08 0 2 = 2 → word s.now = at_ →
      (s.ctlFld 0x20 26 1 = 1 → s.ctlGet 0x28 = at_ → ∃ t, exec (.periodSwitch at_) s = .next t ∧ t.ctlFld 0x18 0 26 = s.ctlFld 0x20 0 26 ∧
        t.ctlFld 0x20 26 1 = 0 ∧ t.switchKnown = false) ∧
      (s.ctlFld 0x20 26 1 = 0 → s.follows = true → ∃ t, exec (.periodSwitch at_) s = .next t ∧ unlocked t 1)) ∧
    (s.ctlFld 0x00 0 2 = 0 → s.ctlFld 0x08 0 2 = 1 → st.getLsbD 2 = false → ∃ t, exec .tickModeChange s = .next t ∧
      t.ctlFld 0x08 0 2 = 0 ∧ t.ctlFld 0x08 4 1 = 1 ∧ t.ctlFld 0x08 5 1 = 0 ∧ t.syncGood = 0) ∧
    (s.ctlFld 0x00 0 2 = 2 → s.ctlFld 0x08 0 2 = 0 → ∃ t, exec .tickModeChange s = .next t ∧
      t.ctlFld 0x08 0 2 = 1 ∧ t.ctlFld 0x08 4 1 = 0 ∧ t.ctlFld 0x08 5 1 = 0)) ∧
  (∀ (s : State) (i start stop p unit c b : Nat) (e : BitVec 64),
    let cleared (t : State) : Prop := t.sched.slotFlow = [] ∧ t.sched.slotYield = [] ∧ t.sched.slotKind = [] ∧ t.sched.sched = s.sched.sched
    (s.sched.pendStart = [(i, start)] → start ≤ s.now → ∃ t, exec .scheduleStartAtTick s = .next t ∧
      t.sched.active = some (i, start) ∧ t.sched.pendStart = [] ∧ t.sched.dqNext = [] ∧ cleared t ∧
      (s.sched.dqNext = [(c, b + 1)] → Tbl.get 0 t.sched.dq c = b) ∧
      (s.fabPorts = [] → t = { s with sched := t.sched, monitor := t.monitor })) ∧
    (s.sched.pendStop = [stop] → s.sched.active = some (i, start) → start < stop → stop ≤ s.now → ∃ t, exec .scheduleStopAtTick s = .next t ∧
      t.sched.active = none ∧ t.sched.pendStop = [] ∧ cleared t ∧ t.ctlFld 0x08 5 1 = 0) ∧
    (∀ f, s.frameIndex = some f → s.slotEntry p f unit = some e → s.ctlFld 0x08 0 2 = 2 → p < s.variant.ports →
      s.remote = [] → s.ce.unsent = [] →
      ∃ t, exec (.slotStart p unit) s = .next t ∧ Tbl.get 0 t.sched.slotFlow p = (e.extractLsb' 32 14).toNat + 1 ∧
        Tbl.get 0 t.sched.slotKind p = (e.extractLsb' 46 2).toNat ∧ Tbl.get false t.sched.slotYield p = e.getLsbD 48) ∧
    (∃ t, exec (.slotEnd p) s = .next t ∧ Tbl.get 0 t.sched.slotFlow p = 0 ∧ Tbl.get false t.sched.slotYield p = false ∧
      (∀ q, q ≠ p → Tbl.get 0 t.sched.slotFlow q = Tbl.get 0 s.sched.slotFlow q) ∧
      (s.fabPorts = [] → t = { s with sched := t.sched })))

/-- Frame tasks and the deferred queue (R48, R53, R54, R365, R453, R456): in the tick handler the monitor starts the frame's task at its entry PC and level with its argument in w1 and OPEN set; a task still open under policy 0 gives way to it, one under policy 1 runs on, CARRIED, and the frame's task waits; after its FDONE the task that waited starts; at an opportunity with a queue whose head entry is valid and fits, that entry starts. Completes: FRAME_TASK_START, DEFERRED_SERVE. Entry at a boundary and deferred reports (R214, R223, R457): EXCEPTION_ENTRY takes the highest-ranked pending exception of a core that waits for nothing; with none pending it changes nothing, but a cause that reached M and that the monitor treats otherwise than a breakpoint resets the core; DEFERRED_ERROR_REPORT leaves a report with cause 0x0E or 0x03, its info bits and its address, at the level of the access. Completes: EXCEPTION_ENTRY, DEFERRED_ERROR_REPORT. -/
def Obligations.TasksStartAndExceptionsAreRanked : Prop :=
  (∀ (s : State) (c i ns : Nat) (e : Pair × Word × Word), let k := s.core c
    let m := k.getMreg 0x11
    let lvl := if e.2.2.getLsbD 1 then 2 else 1
    let started (t : State) (kind : TaskKind) : Prop := let j := t.core c
      j.pc = e.1 ∧ j.pl = lvl ∧ j.ie = false ∧ j.getW 1#5 = e.2.1 ∧ (j.getMreg 0x11).getLsbD 0 = true ∧ (j.getMreg 0x11).getLsbD 4 = false ∧
      j.run = .running ∧ j.fnest = k.fnest ∧ (t.mon c).task = kind ∧ (t.mon c).waits = none
    (s.live c = true → s.remoteWait c = false → k.tickTop = true → m.getLsbD 0 = false → (k.getMreg 0x1F).getLsbD 8 = false →
      s.frameTask c = some e → s.frameIndex = some i → ∃ t, exec (.frameTaskStart c) s = .next t ∧ started t .frame ∧
        (t.mon c).frame = i ∧ (t.core c).inTick = false ∧ (t.core c).dsp.m = k.dsp.m + 64#72 ∧
        (∀ r, r ≠ 1#5 → (t.core c).getW r = k.getW r) ∧ s.SameMem t) ∧
    (s.live c = true → s.remoteWait c = false → k.tickTop = false → (s.mon c).waits = some i → k.isEnded = true →
      (k.getMreg 0x1F).getLsbD 8 = false → s.taskEntry c i = some e → ∃ t, exec (.frameTaskStart c) s = .next t ∧ started t .frame ∧ s.SameMem t) ∧
    (s.live c = true → s.remoteWait c = false → k.tickTop = true → m.getLsbD 0 = true → (s.mon c).task = .frame →
      m.getLsbD 3 = false → s.frameTask c = some e → s.frameIndex = some i → ∃ t, exec (.frameTaskStart c) s = .next t ∧
        (t.mon c).task = .frame ∧ (t.mon c).frame = i ∧ (t.mon c).waits = none) ∧
    (s.live c = true → s.remoteWait c = false → k.tickTop = true → m.getLsbD 0 = true → (s.mon c).task = .frame →
      m.getLsbD 3 = true → m.getLsbD 4 = false → s.frameTask c = some e → s.frameIndex = some i → ∃ t, exec (.frameTaskStart c) s = .next t ∧
        (t.mon c).task = .frame ∧ (t.mon c).waits = some i ∧ ((t.core c).getMreg 0x11).getLsbD 4 = true) ∧
    (let b := s.dqBase c
     let head := (s.wordAt (b + 8)).toNat % 2 ^ 12 % s.dqSize b
     let en := dqEntry b head
     let fl := s.wordAt (en + 0x18)
     s.live c = true → s.remoteWait c = false → (s.mon c).opp = true → k.free = true → b ≠ 0 → (s.mon c).fresh = false → s.schedNow.isSome = true →
     s.dqFirstBad false [b, b + 8, en, en + 8, en + 0x10, en + 0x18] = none → s.dqFirstBad true [b + 0x10] = none →
     4 ≤ (s.wordAt b).toNat % 16 → (s.wordAt b).toNat % 16 ≤ 12 → (s.wordAt b).getLsbD 4 = true → (s.wordAt b).toNat / 32 = 0 →
     fl.getLsbD 0 = true → fl.toNat / 2 ^ 27 = 0 → (fl.extractLsb' 3 24).toNat ≠ 0 → ((fl.extractLsb' 3 24).toNat : Int) ≤ s.clocksLeft ns →
     (k.getMreg 0x1F).getLsbD 8 = false → k.tickTop = false →
     e = (s.wordAt (en + 8) ++ s.wordAt en, s.wordAt (en + 0x10), fl) →
      ∃ t, exec (.deferredServe c ns) s = .next t ∧ started t (.deferred head) ∧ (t.mon c).opp = false)) ∧
  (∀ (s : State) (c access n level dkind dreg : Nat) (fa : Pair) (e : Exc) (j : Core), let k := s.core c
    let report (cause : Nat) : Report :=
      { cause := cause, info := word (access % 4 + n % 8 * 4 + 32 + dkind % 4 * 64 + dreg % 32 * 256), fa := fa, level := level }
    s.live c = true →
    (s.remoteWait c = false → k.pick = some (e, j) → e.cause ≠ 0x11 → exec (.exceptionEntry c) s = .next ((s.setCore c j).enter c e)) ∧
    (s.remoteWait c = false → k.pick = some (e, j) → e.cause = 0x11 →
      exec (.exceptionEntry c) s = .next ((s.setCore c j).enter c { e with info := word s.now })) ∧
    (s.remoteWait c = false → k.pick = none → (s.mon c).due = [] → exec (.exceptionEntry c) s = .next s) ∧
    (∀ d, s.remoteWait c = false → k.pick = none → (s.mon c).due = [d] → d.cause ≠ 0x10 →
      ∃ t, exec (.exceptionEntry c) s = .next t ∧ t.core c = Core.reset) ∧
    ((∃ g, g ∈ k.pSigs ∧ 2 ≤ g.kind) → k.dfActive = false → ∃ e j, k.pick = some (e, j) ∧ e.cause = 0x12 ∧ e.target = 0) ∧
    ((∀ g, g ∈ k.pSigs → g.kind < 2) → (∃ r, r ∈ k.pReports ∧ r.level ≤ k.pl) → ∃ e j r, k.pick = some (e, j) ∧ r ∈ k.pReports ∧
      e.cause = r.cause ∧ e.info = r.info ∧ e.fa = r.fa) ∧
    ((∀ g, g ∈ k.pSigs → g.kind < 2) → k.pReports = [] → k.pTraps = [] → k.pTick = true → k.dfActive = false → k.inTick = false →
      ∃ e j, k.pick = some (e, j) ∧ e.cause = 0x11 ∧ e.target = 0) ∧
    exec (.deferredErrorReport c false access n dkind dreg (level, fa)) s = .next (s.setCore c { k with pReports := k.pReports ++ [report 0x03] }) ∧
    (∃ t, exec (.deferredErrorReport c true access n dkind dreg (level, fa)) s = .next t ∧ (t.core c).pReports = k.pReports ++ [report 0x0E]))

/-! ## Registers, memory system and DMA -/

/-- Register commands (R13, R32, R250, R287, R321, R351): a command that is a write of one register is that write, with the value its operation has, when the agent's level may write it; at another level a core takes cause 0x04 with REASON 5 and the write of any other agent is dropped; a read that is permitted gives the register's value to the agent. Completes: TICK_CTRL_WRITE, TICK_SWITCH_AT_WRITE, TICK_COUNT_LO_READ, TC_OP_GO, CMBX_POST, DMA_DOORBELL, DMA_START, DMA_STOP, DMA_ABORT, DMA_RESUME, DMA_SKIP, DMA_RESET, FAB_ENABLE, FAB_AUTH, FAB_DRAIN, FAB_REJOIN, FLOW_CMD_LISTEN, FLOW_CMD_OPEN, FLOW_CMD_CLOSE, FLOW_CMD_RESET, FAB_BIND_INV, CE_QUEUE_DOORBELL, CE_QUEUE_START, CE_QUEUE_STOP, CE_QUEUE_RESET, SH_ADV, LIN_FIND, EPH_OPEN, EPH_COMMIT, EPH_DIG_LEN, EPH_NOTE, EPH_RECOV_WRITE, FAB_PORT_RETRAIN, READ_CLEAR, REGISTER_WRITE. -/
def Obligations.RegisterCommandsReachTheirRegister : Prop :=
  ∀ (s : State) (by_ : Agent) (q n k die p f : Nat) (on : Bool) (v : Word),
    let keep := s.ctlGet 0x200000 &&& 3#36
    let cmds : List (Instr × Nat × Word) :=
      [(.tickCtrlWrite by_ 0 v, 0x00, v), (.tickCtrlWrite by_ 1 v, 0x10, v), (.tickCtrlWrite by_ 2 v, 0x20, v), (.tickSwitchAtWrite by_ v, 0x28, v),
       (.fabAuth by_ on, 0x200000, if on then keep ||| 2#36 else keep &&& ~~~ 2#36), (.fabEnable by_ on, 0x200000, if on then keep ||| 1#36 else keep &&& ~~~ 1#36),
       (.fabDrain by_, 0x200000, keep ||| 4#36), (.fabRejoin by_, 0x200000, keep ||| 8#36), (.fabBindInv by_ v, 0x200060, v),
       (.flowCmdListen by_ f, 0x200068, word (f % 16384 + 2 ^ 14)), (.flowCmdOpen by_ f, 0x200068, word (f % 16384 + 2 * 2 ^ 14)),
       (.flowCmdClose by_ f, 0x200068, word (f % 16384 + 3 * 2 ^ 14)), (.flowCmdReset by_ f, 0x200068, word (f % 16384 + 4 * 2 ^ 14)),
       (.ephOpen by_ v, 0x60028, v), (.ephCommit by_ v, 0x60030, v), (.ephDigLen by_ v, 0x60048, v), (.ephNote by_ v, 0x60050, v),
       (.ephRecovWrite by_ v, 0x60058, v)] ++
      (if die < s.variant.dies then [(.tcOpGo by_ die v, 0x80000 + die * 0x10000 + 8, v)] else []) ++
      (if n < 256 ∧ k < 8 then [(.cmbxPost by_ n k v, 0x220000 + n * 0x100 + k * 0x20 + 0x10, v)] else []) ++
      (if dmaPresent s.variant q then
        [(.dmaDoorbell by_ q, 0x100000 + q * 0x1000 + 0x10, 0#36), (.dmaStart by_ q, 0x100000 + q * 0x1000 + 8, 1#36),
         (.dmaStop by_ q, 0x100000 + q * 0x1000 + 8, 2#36), (.dmaAbort by_ q, 0x100000 + q * 0x1000 + 8, 4#36),
         (.dmaResume by_ q, 0x100000 + q * 0x1000 + 8, 8#36), (.dmaSkip by_ q, 0x100000 + q * 0x1000 + 8, 16#36),
         (.dmaReset by_ q, 0x100000 + q * 0x1000 + 8, 32#36)] else []) ++
      (if p < s.variant.ports then [(.fabPortRetrain by_ p, 0x200200 + p * 0x40, s.ctlGet (0x200200 + p * 0x40) ||| 2#36)] else []) ++
      (if q < 8 then
        [(.ceQueueDoorbell by_ q, ceOff q 0x10, 0#36), (.ceQueueStart by_ q, ceOff q 8, 1#36), (.ceQueueStop by_ q, ceOff q 8, 2#36),
         (.ceQueueReset by_ q, ceOff q 8, 4#36)] else []) ++
      (if n < 512 then [(.shAdv by_ n v, shOff n 0x28, v)] else []) ++
      (if n < s.variant.cores then [(.linFind by_ n v, 0x61000 + 16 * n, v)] else [])
    s.agentLive by_ = true →
    (∀ c o w, (c, o, w) ∈ cmds →
      (s.ctlDenied (s.agentLevel by_) o = false → exec c s = .next (s.ctlWrite by_ o w)) ∧
      (s.ctlDenied (s.agentLevel by_) o = true →
        (∀ m, by_ = .core m → exec c s = .next (s.trapped m 0x04 5#36 0#72)) ∧ ((∀ m, by_ ≠ .core m) → exec c s = .next s))) ∧
    (∀ o, ctlInBlock o = true → o % 8 = 0 → s.ctlDenied (s.agentLevel by_) o = false →
      exec (.registerWrite by_ o v) s = .next (s.ctlWrite by_ o v)) ∧
    (∀ o, ctlInBlock o = true → o % 8 = 0 → s.ctlReadDenied (s.agentLevel by_) o = false →
      exec (.readClear by_ o) s = .next ((s.ctlRead by_ o).2.emit (.readVal (s.ctlRead by_ o).1))) ∧
    (∃ t : State, exec (.tickCountLoRead by_) s = .next (t.emit (.readVal (word s.now))) ∧
      ∀ m, by_ = .core m → Tbl.get 0#36 t.tickShadow m = s.tickCount.extractLsb' 36 36)

/-- Requests and detection (R240, R243, R244, R236): a request of a present agent to memory waits and is admitted at once when a slot and bank room are free; a clean completion frees its slot; a failed GDDR7 line is poisoned at home and a core's load ends in a deferred report with its register, address and level; maintenance of a tensor cache passes the lines of its range and sets DONE; on-die reports are logged; an expander that goes down takes its memory. Completes: REQUEST_ADMIT, MEMORY_REQUEST_COMPLETE, GDDR7_REFRESH, TC_OP_DONE, CXL_EXPANDER_DOWN. -/
def Obligations.MemoryRequestsAreAdmittedAndComplete : Prop :=
  ∀ (s : State) (agent pa bank die g port : Nat) (write : Bool) (acc : MemAcc) (d : Nat) (bad : List Nat),
    let q : MemReq := { agent := agent, pa := pa, write := write, bank := bank % 48, admitted := false, acc := acc }
    let one : MemReq := { q with admitted := true }
    (s.region pa = .gddr → s.agentPresent agent = true → s.memReqs = [] →
      (s.canAdmit pa = true → ∃ t, exec (.requestAdmit agent pa write (bank, acc)) s = .next t ∧ t = { s with memReqs := [one], arb := t.arb, ctl := t.ctl }) ∧
      (s.slotFree pa = true → s.bankRoom pa = false →
        ∃ t, exec (.requestAdmit agent pa write (bank, acc)) s = .next t ∧ t = { s with memReqs := [q], ctl := t.ctl })) ∧
    (s.memReqs = [one] → s.region pa = .gddr → s.readErr pa 1 = none → ∃ t, exec (.memoryRequestComplete agent pa write .clean bank) s = .next t ∧
      t = { s with memReqs := [], tcLines := t.tcLines, l1d := t.l1d, l1i := t.l1i }) ∧
    (s.memReqs = [one] → s.region pa = .gddr → agent < 192 → s.ctlFld 0x60008 0 2 ≠ 1 →
      ∃ t, exec (.memoryRequestComplete agent pa write .failed bank) s = .next t ∧ t.memReqs = [] ∧ t.readErr pa 1 = some 3 ∧
        (acc.kind = .reg d → (t.core agent).pReports = (s.core agent).pReports ++
          [{ cause := 0x0E, info := word (3 * 4 + (1 + 2 * d) * 32), fa := acc.addr, level := acc.level }])) ∧
    (die < s.variant.dies → (s.ctlGet (0x80000 + die * 0x10000 + 8)).getLsbD 3 = true → (s.ctlGet (0x80000 + die * 0x10000 + 8)).toNat % 4 = 2 → bad = [] →
      ∃ t, exec (.tcOpDone die bad) s = .next t ∧ (t.ctlGet (0x80000 + die * 0x10000 + 8)).getLsbD 3 = false ∧
        (t.ctlGet (0x80000 + die * 0x10000 + 8)).getLsbD 4 = true ∧
        Tbl.get [] t.tcLines die = (Tbl.get [] s.tcLines die).filter (fun l => !s.tcOpHolds die l.line) ∧ s.SameMem t) ∧
    (g < s.variant.gddrs → s.region pa = .gddr → s.gddrDevice pa = g →
      let o := 0x80000 + g / 4 * 0x10000 + 0x2000
      ∃ t, exec (.gddr7Refresh g [pa]) s = .next t ∧ s.SameMem t ∧
        (if (s.ctlGet o).getLsbD 0 then (t.ctlGet o).getLsbD 12 = true
         else (t.ctlGet o).getLsbD 0 = true ∧ t.ctlFld o 1 3 = 3 ∧ t.ctlFld o 4 2 = 3 ∧ t.ctlGet (o + 8) = word (pa / 64 * 64))) ∧
    (port < s.variant.cxlPorts → ∃ t, exec (.cxlExpanderDown port) s = .next t ∧ Tbl.get false t.cxlDown port = true ∧
      t = { s with cxlDown := t.cxlDown })

/-- Arbitration (R257–R264): with no lock, freed bank or control packet among the heads, the head of the highest rank class × 8 + LOST wins, its LOST clears and every other head's LOST rises by 1; the grant moves the class's round-robin point past the winner; a lock held past its limit raises its event once. Completes: ARBITRATION_DECISION, LOCKLONG. Semaphores and core mailboxes (R249–R252): a store or atomic leaves the new count and gives an atomic's old value to the agent; an increase with ARM set signals the named core, once for a semaphore that is signalled already, and clears ARM when it is one-shot; a post to an empty mailbox fills it and signals when enabled; a post to a full one sets its overflow bit and leaves the data. Completes: SEM_COUNT_UPDATE, CMBX_POST. -/
def Obligations.ArbitersSemaphoresAndMailboxes : Prop :=
  (∀ (s : State) (i : Nat) (heads : List ArbReq) (w : ArbReq) (n : Nat),
    let x := s.arbX i
    let limit := s.ctlFld (0x20000 + i * 0x80) 5 12
    let lost (t : State) (j : Nat) : Nat := Tbl.get 0 (t.arbX i).lost j
    arbPresent s.variant i = true → s.slotHeld i = false →
    (s.contest i heads = heads → (∀ r, r ∈ heads → r.freed = false ∧ r.control = false ∧ r.unlock = false ∧ r.lock = false) → x.lock = none →
      (heads.map (fun r => r.input)).Nodup → w ∈ heads → (∀ r, r ∈ heads → r ≠ w → s.arbRank i r < s.arbRank i w) →
      (∀ r, r ∈ heads → lost s r.input + 1 < limit ∧ limit ≤ 4095) →
      ∃ t, exec (.arbitrationDecision i heads) s = .next t ∧ lost t w.input = 0 ∧ (∀ r, r ∈ heads → r ≠ w → lost t r.input = lost s r.input + 1) ∧
        (∀ j, (∀ r, r ∈ heads → r.input ≠ j) → lost t j = lost s j) ∧
        Tbl.get 0 (t.arbX i).rr (s.arbClass i w) = w.input + 1 ∧ (t.arbX i).lock = none ∧ t.log = s.log) ∧
    (∀ j, x.lock = some (j, n) → x.longDone = false → s.ctlFld (0x20000 + i * 0x80) 17 16 ≤ n →
      ∃ t, exec (.locklong i) s = .next t ∧ (t.ctlGet (0x20000 + i * 0x80 + 8)).getLsbD 1 = true ∧ (t.arbX i).longDone = true ∧
        (t.arbX i).lock = some (j, n) ∧
        t.ctlFld (0x20000 + i * 0x80 + 0x28) 12 12 = min (s.ctlFld (0x20000 + i * 0x80 + 0x28) 12 12 + 1) 4095)) ∧
  (∀ (s : State) (by_ : Agent) (i op n k : Nat) (v e : Word),
    let so := 0x10000 + 16 * i
    let old := s.ctlGet so
    let new := if op = 1 then old + v else if op = 3 then (if old = e then v else old) else v
    let c := s.ctlGet (so + 8)
    let target := (c.extractLsb' 0 8).toNat
    let mo := 0x220000 + n * 0x100 + k * 0x20
    let st := s.ctlGet (mo + 8)
    (s.agentLive by_ = true → i < s.variant.semas → ∃ t, exec (.semCountUpdate by_ i op v e) s = .next t ∧ t.ctlGet so = new ∧
      (∀ o, o ≠ so → o ≠ so + 8 → t.ctlGet o = s.ctlGet o) ∧ s.SameMem t ∧
      (op ≠ 0 → ∃ l, t.out = l ++ .readVal old :: s.out) ∧
      (old.toInt < new.toInt → c.getLsbD 9 = true → s.deaf target = false →
        (∃ g, g ∈ (t.core target).pSigs ∧ g.kind = 0 ∧ g.index = i ∧
          ((∀ g, g ∈ (s.core target).pSigs → g.kind = 0 → g.index ≠ i) → g.level = (c.extractLsb' 8 1).toNat)) ∧
        (t.ctlGet (so + 8)).getLsbD 9 = !c.getLsbD 10) ∧
      (¬ (old.toInt < new.toInt) → t.cores = s.cores ∧ t.ctlGet (so + 8) = c)) ∧
    (s.agentLive by_ = true → s.ctlDenied (s.agentLevel by_) (mo + 0x10) = false → n < s.variant.cores → k < 8 → s.isRetired n = false →
      (st.getLsbD 0 = true → ∃ t, exec (.cmbxPost by_ n k v) s = .next t ∧ t.ctlGet (mo + 8) = st ||| 2#36 ∧ t.ctlGet mo = s.ctlGet mo ∧ t.cores = s.cores) ∧
      (st.getLsbD 0 = false → ∃ t, exec (.cmbxPost by_ n k v) s = .next t ∧ t.ctlGet mo = v ∧ t.ctlGet (mo + 8) = st ||| 1#36 ∧
        (st.getLsbD 2 = true → s.deaf n = false → ∃ g, g ∈ (t.core n).pSigs ∧ g.kind = 1 ∧ g.index = k ∧
          ((∀ g, g ∈ (s.core n).pSigs → g.kind = 1 → g.index ≠ k) → g.level = (st.extractLsb' 3 1).toNat)))))

/-- Remote accesses (R247, R248, R294): the target performs the packet its flow expects, in order, and answers it: a READ of placed memory with its bytes, a WRITE by writing them, an ATOMIC with the old value; each advances the flow's expected PSEQ; a packet that arrives early is held, and one performed before is dropped. At the requester an answer to a scalar load writes its register and the core goes on, and a timeout ends the access with a bus error. Completes: REMOTE_REQUEST, REMOTE_TIMEOUT_EXPIRY, WRITE, READ, RESP, ATOMIC, BULK, DATA. -/
def Obligations.RemoteAccessesAreServedInOrder : Prop :=
  ∀ (s : State) (f : Nat) (r : Rx) (ls : List (List Piece)) (key : Nat → Nat),
    let off := 0x300000 + f * 0x40
    let expect := s.ctlFld (off + 0x10) 16 16
    let slots := rxSlots r
    let ready := s.flowState f = 4 ∧ 3 ≤ s.fabState ∧ s.fabState ≤ 4 ∧ f < 16384
    let deliverable := s.portsIdle = true ∨ (s.slotPort f).isSome = true ∨ (s.routeOf (s.flowDev f) none none).isSome = true
    let inMemory (need : Need) : Prop := s.Placed r.level need slots ls ∧ (∀ ps, ps ∈ ls → ∀ p, p ∈ ps → s.serves p.pa = true)
    let advanced (t : State) : Prop := t.ctlFld (off + 0x10) 16 16 = (expect + 1) % 65536
    let answered (t : State) (body : List Byte) : Prop := ∃ l, t.out = l ++ .packet 2 (s.flowDev f) (s.flowPeer f) f r.pseq body :: s.out
    (ready → deliverable → r.pseq = expect → (s.flowX f).held = [] →
      (inMemory .read → ∀ c, c = Instr.read f r ∨ (r.typ = 1 ∧ c = .remoteRequest f r) → ∃ t, exec c s = .next t ∧ advanced t ∧ s.SameMem t ∧
        answered t (0#8 :: ls.flatten.flatMap (fun p => s.bytesAt p.pa p.len))) ∧
      (inMemory .write → (∀ ps, ps ∈ ls → ∀ p, p ∈ ps → s.cellKey p.pa = some (key p.pa)) →
        let ws := (servePieces ls (rxBytes r)).map (fun w => (key w.1.pa, w.2))
        (∃ t, exec (.write f r) s = .next t ∧ advanced t ∧ answered t [0#8] ∧ ∀ n, t.byteAt n = bitsAt ws (s.byteAt n) n) ∧
        (∃ t, exec (.bulk f r) s = .next t ∧ advanced t ∧ (∃ l, t.out = l ++ s.out ∧ ∀ a b c d e p, Emit.packet a b c d e p ∉ l) ∧ ∀ n, t.byteAt n = bitsAt ws (s.byteAt n) n)) ∧
      (∀ p old, inMemory .both → ls = [[p]] → p.len = 8 → old = wordOfBytes (s.bytesAt p.pa 8) → s.cellKey p.pa = some (key p.pa) →
        ∃ t, exec (.atomic f r) s = .next t ∧ advanced t ∧ answered t (0#8 :: wordBytes old) ∧
          let v := wordOfBytes r.body; let e := wordOfBytes (r.body.drop 8)
          let new := if r.op = 0 then old + v else if r.op = 2 then (if old = e then v else old) else v
          ∀ n, t.byteAt n = writesAt [(key p.pa, if r.op = 2 ∧ old ≠ e then s.bytesAt p.pa 8 else wordBytes new)] (s.byteAt n) n)) ∧
    (ready → (r.pseq + 65536 - expect) % 65536 ≠ 0 →
      ((r.pseq + 65536 - expect) % 65536 < 32768 → (s.flowX f).held = [] → s.flows = [] → exec (.write f r) s = .next
        ((s.modFlowX f (fun x => { x with held := [.rx { r with typ := 0 }] })).ctlPut (off + 0x18) 26 10 1)) ∧
      (32768 ≤ (r.pseq + 65536 - expect) % 65536 → exec (.write f r) s = .next s)) ∧
    (∀ (q : RemReq) (b : List Byte) (d : Reg), s.sentReq f r.pseq = some q → q.dest = .w d 0 → (s.core q.core).sstep = false → (∀ p, p ∈ s.remote → p.pseq.isSome = true) →
      ∃ t, exec (.resp f r.pseq (.data b)) s = .next t ∧ t.core q.core = { (s.core q.core).setW d (wordOfBytes b) with pc := q.next }) ∧
    (∀ (q : RemReq), s.remote.find? (fun r => r.core == q.core) = some q → q.pseq = none → q.precise = true →
      exec (.remoteTimeoutExpiry q.core) s = .next (({ s with remote := s.remote.erase q } : State).trapped q.core 0x03
        ((XErr.bus 4).info (if q.access = 1 then .write else .read) (2 * q.dest.code)) q.addr))

/-- Channel control (R282, R271, R288): from each state the writes of DMA_CTRL that R282 allows move the channel as it says, the others do nothing; a doorbell rings; ABORT acts on the SN-9440-M alone; RESET returns the ring and queue registers to their reset values. Completes: DMA_DOORBELL, DMA_START, DMA_STOP, DMA_ABORT, DMA_RESUME, DMA_SKIP, DMA_RESET. -/
def Obligations.DmaControlMovesTheChannel : Prop :=
  ∀ (s : State) (q pr pa key : Nat),
    let off := 0x100000 + q * 0x1000
    let st := s.dmaState q
    let x := s.dmaX q
    dmaPresent s.variant q = true →
    (∃ t, exec (.dmaDoorbell .alidade q) s = .next t ∧ (t.ctlGet (off + 0x18)).getLsbD 10 = true ∧ t.dmaState q = st ∧ t = { s with ctl := t.ctl }) ∧
    (st = 0 → ∃ t, exec (.dmaStart .alidade q) s = .next t ∧ t.dmaState q = 1 ∧ t.dmaX q = { x with look := true }) ∧
    (st ≠ 0 → exec (.dmaStart .alidade q) s = .next s) ∧
    (st ≠ 0 → x.record = none → ∃ t, exec (.dmaStop .alidade q) s = .next t ∧ t.dmaState q = 0 ∧
      t.dmaX q = { x with desc := none, scale := none, look := false, waits := none } ∧ t.ctlFld (off + 0x18) 3 2 = 0 ∧ s.SameMem t) ∧
    (st ≠ 0 → x.record.isSome = true → ∃ t, exec (.dmaStop .alidade q) s = .next t ∧ t.dmaX q = { x with stopping := true } ∧ t.ctl = s.ctl) ∧
    (st = 0 → exec (.dmaStop .alidade q) s = .next s) ∧
    (st = 0 ∨ st = 4 → ∃ t, exec (.dmaReset .alidade q) s = .next t ∧ t.dmaState q = 0 ∧ t.dmaX q = {} ∧
      t.ctlFld (off + 0x30) 0 16 = 0 ∧ t.ctlFld (off + 0x48) 0 16 = 0 ∧ t.ctlGet (off + 0x58) = 0#36 ∧ s.SameMem t) ∧
    (st ≠ 0 → st ≠ 4 → exec (.dmaReset .alidade q) s = .next s) ∧
    (st = 4 → (∀ d, x.desc = some d → ∃ t, exec (.dmaResume .alidade q) s = .next t ∧ t.dmaState q = 2 ∧
        t.dmaX q = { x with snap := s.ctlGet (0x30000 + 16 * (d.aux.extractLsb' 0 12).toNat + 8) }) ∧
      (x.desc = none → ∃ t, exec (.dmaResume .alidade q) s = .next t ∧ t.dmaState q = 1 ∧ t.dmaX q = { x with look := true })) ∧
    (st ≠ 4 → exec (.dmaResume .alidade q) s = .next s ∧ exec (.dmaSkip .alidade q) s = .next s) ∧
    (st = 4 → x.desc = none → s.dmaPlain q .read (s.dmaHeadAddr q) 8 = .ok pr → s.dmaPlain q .write (s.dmaHeadAddr q) 8 = .ok pa → s.cellKey pa = some key →
      ∃ t, exec (.dmaSkip .alidade q) s = .next t ∧ t.dmaState q = 1 ∧ (t.dmaX q).look = true ∧
        t.ctlFld (off + 0x30) 0 16 = (s.dmaHead q + 1) % s.dmaRing q ∧
        ∀ n, t.byteAt n = writesAt [(key, wordBytes (s.wordAt pr &&& ~~~ 0x80#36))] (s.byteAt n) n) ∧
    (s.variant ≠ .m9440 → exec (.dmaAbort .alidade q) s = .next s) ∧
    (s.variant = .m9440 → st = 2 ∨ st = 3 → ∃ t, exec (.dmaAbort .alidade q) s = .next t ∧ t.dmaState q = 0 ∧ (t.dmaX q).desc = none ∧
      (t.dmaX q).record = none ∧ (t.dmaX q).waits = none ∧ (t.dmaX q).look = false)

/-- Descriptors (R270, R271, R281, R280, R286): an IDLE channel whose descriptor at HEAD is owned and well formed runs it, and one that is not owned waits for a doorbell; a waiting phase begins at its point; NOP and GENCHK end with status 0, GENCHK with the generation it compared; a completed record is written at TAIL, word 0 with PHASE and OVERRUN last, TAIL and HEAD advance, OWN clears and SEM_INC counts. Completes: DMA_DESCRIPTOR_FETCH, DMA_NOP, GENCHK, DMA_COMPLETION_RECORD, DMA_PHASE_START. -/
def Obligations.DmaDescriptorsRunAndComplete : Prop :=
  ∀ (s : State) (q unit pb kb : Nat) (pw pa k : Nat → Nat) (d : DmaDesc) (r : DmaRec) (ctrl : Word) (res : RemRes),
    let off := 0x100000 + q * 0x1000
    let x := s.dmaX q
    let sched := s.ctlFld off 2 1 == 1
    dmaPresent s.variant q = true →
    (s.dmaState q = 1 → (x.look = true ∨ (s.ctlGet (off + 0x18)).getLsbD 10 = true) →
      (∀ i, i < 8 → s.dmaPlain q .read (s.dmaHeadAddr q + BitVec.ofNat 72 (8 * i)) 8 = .ok (pw i)) →
      d = dmaDescOf ((List.range 8).map (fun i => s.wordAt (pw i))) (s.dmaHead q) →
      (d.ctrl.getLsbD 7 = false → ∃ t, exec (.dmaDescriptorFetch q (unit, res)) s = .next t ∧ t.dmaState q = 1 ∧ t.dmaX q = { x with look := false } ∧
        (t.ctlGet (off + 0x18)).getLsbD 10 = false ∧ s.SameMem t) ∧
      (d.ctrl.getLsbD 7 = true → s.isPhase q d = false → s.descBad d = false → ∃ t, exec (.dmaDescriptorFetch q (unit, res)) s = .next t ∧ t.dmaState q = 2 ∧
        (t.ctlGet (off + 0x18)).getLsbD 10 = false ∧ t.dmaX q = { x with look := false, desc := some d, waits := none, snap := s.ctlGet (0x30000 + 16 * (d.aux.extractLsb' 0 12).toNat + 8) } ∧ s.SameMem t) ∧
      (d.ctrl.getLsbD 7 = true → s.isPhase q d = true → s.frameBad d = false → s.descBad d = false → ∃ t, exec (.dmaDescriptorFetch q (unit, res)) s = .next t ∧
        t.dmaState q = 3 ∧ (t.ctlGet (off + 0x18)).getLsbD 4 = true ∧ (t.dmaX q).waits = some (s.now, unit % 1024) ∧ (t.dmaX q).desc = some d)) ∧
    (∀ w i start, x.desc = some d → x.waits = some w → x.phase = none → s.schedNow = some (i, start) → s.dmaState q = 3 → s.frameBad d = false → s.descBad d = false →
      (let p := startPoint start (s.schedLen i) (d.ctrl.extractLsb' 24 12).toNat (d.ctrl.extractLsb' 14 10).toNat w false
       p.1 < s.now ∨ (p.1 = s.now ∧ p.2 ≤ unit % 1024)) →
      ∃ t, exec (.dmaPhaseStart q unit) s = .next t ∧ t.dmaState q = 2 ∧ (t.dmaX q).phase = some (s.now, unit % 1024) ∧ (t.dmaX q).late = false ∧
        (t.dmaX q).waits = none ∧ t.ctlFld (off + 0x18) 3 2 = 0) ∧
    (x.desc = some d → s.dmaState q = 2 → x.record = none →
      (let rec_ (w0 : Nat) (w3 : Word) : DmaRec :=
         { w0 := word (q * 2 ^ 6 + (if sched && x.late then 2 ^ 15 else 0) + w0), w1 := d.word1, w2 := 0#36, w3 := w3,
           status := 0, release := some d.ctrl }
       (d.op = 0 → d.ctrl.getLsbD 12 = false → exec (.dmaNop q) s = .next ((s.setDmaState q 2).setDmaX q { x with record := some (rec_ 0 0#36) })) ∧
       (d.op = 6 → let g := s.ctlGet (0x30000 + 16 * (d.aux.extractLsb' 0 12).toNat + 8)
         exec (.genchk q) s = .next ((s.setDmaState q 2).setDmaX q { x with record := some (rec_ (2 ^ 33 + if g = d.shape then 0 else 2 ^ 34) g) })))) ∧
    (let a := s.dmaPair q 0x38 5 + BitVec.ofNat 72 (32 * s.ctlFld (off + 0x48) 0 16)
     x.record = some r → r.release = some ctrl → x.stopping = false → s.dmaFull q = false → s.dmaLevel q = 0 →
     (∀ i, i < 4 → s.dmaPlain q .write (a + BitVec.ofNat 72 (8 * i)) 8 = .ok (pa i) ∧ s.cellKey (pa i) = some (k i)) →
     s.dmaPlain q .write (s.dmaHeadAddr q) 8 = .ok pb → s.cellKey pb = some kb →
      ∃ t, exec (.dmaCompletionRecord (q, res)) s = .next t ∧ t.dmaState q = 1 ∧ t.dmaX q = { x with record := none, desc := none, scale := none, stopping := false, look := true } ∧
        t.ctlFld (off + 0x18) 5 5 = r.status % 32 ∧ t.ctlFld (off + 0x48) 0 16 = (s.ctlFld (off + 0x48) 0 16 + 1) % s.dmaQueue q ∧
        t.ctlFld (off + 0x30) 0 16 = (s.dmaHead q + 1) % s.dmaRing q ∧
        (ctrl.getLsbD 4 = true → s.ctlFld off 3 12 < s.variant.semas → let so := 0x10000 + 16 * s.ctlFld off 3 12; t.ctlGet so = s.ctlGet so + 1#36) ∧
        ∀ n, t.byteAt n = writesAt [(k 1, wordBytes r.w1), (k 2, wordBytes r.w2), (k 3, wordBytes r.w3),
          (k 0, wordBytes ((r.w0 &&& ~~~ 1#36) ||| word (s.ctlFld (off + 0x48) 16 1) ||| (if sched && x.ranOver then 0x4000#36 else 0#36))), (kb, wordBytes (ctrl &&& ~~~ 0x80#36))] (s.byteAt n) n)

/-- DMA operations (R275–R277, R276) of a channel of level M whose ranges lie in memory of this device and do not overlap: COPY and COPY2D write the source's bytes in order, TRANSPOSE exchanges rows and columns of its elements, FILL repeats the image of the pattern word, CONVERT writes the converted elements and feeds DMA_AMAX; each ends with status 0 and the number of bytes written, and no other byte of memory changes. Completes: COPY, COPY2D, TRANSPOSE, CONVERT, FILL. -/
def Obligations.DmaOperationsMoveTheirBytes : Prop :=
  ∀ (s : State) (q : Nat) (d : DmaDesc) (pa key : Pair → Nat) (res : RemRes),
    let x := s.dmaX q
    let off := 0x100000 + q * 0x1000
    let sched := s.ctlFld off 2 1 == 1
    let placed (need : Need) (l : List (Pair × Nat)) : Prop := ∀ p, p ∈ l.flatMap pieces → (∃ h, s.dmaSlot q need p.1 p.2 = .ok (pa p.1, h)) ∧
      (∀ o, s.region (pa p.1) ≠ .ctl o) ∧ s.cellKey (pa p.1) = some (key p.1) ∧ s.readErr (pa p.1) p.2 = none
    let source : List Byte := (d.srcs.flatMap pieces).flatMap (fun p => s.bytesAt (pa p.1) p.2)
    let writes (b : List Byte) : List (Nat × List Byte) := ((d.dsts.flatMap pieces).foldl (fun (acc : List (Nat × List Byte) × List Byte) p =>
      (acc.1 ++ [(key p.1, acc.2.take p.2)], acc.2.drop p.2)) ([], b)).1
    let wrote (c : Instr) (b : List Byte) (high : Nat) (t : State) : Prop := exec c s = .next t ∧ t.dmaState q = 2 ∧
      (t.dmaX q).record = some { w0 := word (q * 2 ^ 6 + (if sched && x.late then 2 ^ 15 else 0) + high), w1 := d.word1,
                                 w2 := word b.length, w3 := 0#36, status := 0, release := some d.ctrl } ∧
      ∀ n, t.byteAt n = writesAt (writes b) (s.byteAt n) n
    dmaPresent s.variant q = true → s.dmaState q = 2 → x.desc = some d → x.record = none → s.dmaLevel q = 0 → d.ctrl.getLsbD 12 = false →
    (d.srcs ≠ [] → s.farAway d.src = false) → s.farAway d.dst = false → placed .read d.srcs → placed .write d.dsts →
    overlaps (s.dmaPhys q .write d.dsts) (s.dmaPhys q .read d.srcs) = [] →
    (d.op = 1 → ∃ t, wrote (.copy q res) source 0 t) ∧
    (d.op = 2 → ∃ t, wrote (.copy2d q res) source 0 t) ∧
    (d.op = 3 → ∃ (b : List Byte) (t : State), wrote (.transpose q res) b 0 t ∧ b.length = source.length ∧
      ∀ r c i, r < d.rows → c < d.rowLen → i < d.esize → b.getD ((c * d.rows + r) * d.esize + i) 0#8 = source.getD ((r * d.rowLen + c) * d.esize + i) 0#8) ∧
    (d.op = 5 → d.len % 8 = 0 → ∃ t, wrote (.fill q res) ((List.replicate (d.len / 8) (wordBytes (d.src.extractLsb' 0 36))).flatten) 0 t) ∧
    (let conv := d.stride
     let sf := codeFmt (conv.extractLsb' 0 5).toNat; let df := codeFmt (conv.extractLsb' 5 5).toNat
     let am := s.ctlGet (off + 0x58)
     let vals : List FVal := (imageElems (conv.extractLsb' 0 5).toNat d.len source).map sf.decode
     d.op = 4 → s.descBad d = false →
      (conv.getLsbD 29 = true → ∃ t, exec (.convert q res) s = .next t ∧ t.ctlGet (off + 0x58) = vals.foldl amaxFeed am ∧ s.SameMem t ∧
        ∃ r, (t.dmaX q).record = some r ∧ r.status = 0 ∧ r.w2 = 0#36) ∧
      (conv.getLsbD 29 = false → conv.getLsbD 15 = false → conv.getLsbD 16 = false → x.scale = none → (conv.extractLsb' 10 3).toNat < 4 →
        let out : List FRes := vals.map (fun v => df.convertFrom sf { rmode := (conv.extractLsb' 10 3).toNat, ovmode := (conv.extractLsb' 13 2).toNat, draw := 0 } (v.scale 0))
        let image := rowBytes (conv.extractLsb' 5 5).toNat (packRow df (convSlots (conv.extractLsb' 5 5).toNat d.len) (out.map (fun r => r.bits)))
        ∃ t, wrote (.convert q res) image (convFlags (out.foldl (fun f r => f ||| r.flags) 0#9)) t ∧ t.ctlGet (off + 0x58) = vals.foldl amaxFeed am))

/-! ## The fabric and collectives -/

/-- Ports (R295, R297, R301, R443): bring-up starts at DETECT, a phase that exceeds its limit starts again and the third failure gives reason 1, a HELLO with the expected port, coordinates and shape is answered and leads to the delay measurement, and the sixteenth probe makes the port UP within 800 ns with its first CREDIT; lost alignment retrains with the replay buffer kept, and transmission resumes from it after HELLO and DELAY. That a HELLO mismatch names its reason when the phase ends is the model's reading (log 37). Completes: PORT_BRINGUP, BRINGUP_RETRY, BRINGUP_PHASE_TIMEOUT, LINK_HELLO, DELAY_PROBE, LINK_ALIGN_LOST, LINK_RESET, RETRAIN_DONE. -/
def Obligations.PortsComeUpRetrainAndFail : Prop :=
  ∀ (s : State) (p phase port coord shape id v : Nat),
    let x := s.portX p
    let at_ (t : State) (st reason : Nat) : Prop := t.portState p = st ∧ t.ctlFld (portOff p 8) 3 3 = reason
    let failed (c : Instr) (reason : Nat) : Prop :=
      ∃ u : State, exec c s = .next ((u.portFlows p).foldl (fun t f => t.flowBreak f 7 true) u) ∧ at_ u 4 reason ∧ (u.portX p).replay = []
    let l := insertRising v x.probes
    let d := (l.getD 7 0 + l.getD 8 0) / 4
    let begun (c : Instr) : Prop := ∃ t, exec c s = .next t ∧ at_ t 1 0 ∧ (t.portX p).phase = 1 ∧ (t.portX p).attempts = 0 ∧ s.SameMem t
    s.portUsed p = true →
    (s.portState p = 0 → s.fabState ≠ 0 → s.fabState ≠ 5 → s.ctlFld (portOff p 0) 0 1 = 0 → begun (.portBringup p)) ∧
    (s.portState p = 4 → s.ctlFld (portOff p 8) 3 3 = 1 ∨ s.ctlFld (portOff p 8) 3 3 = 4 → x.failedAt + 1024 ≤ s.now →
      s.ctlFld (portOff p 0) 0 1 = 0 → begun (.bringupRetry p)) ∧
    (s.portState p = 1 → x.phase ≤ phase → 1 ≤ phase → phase ≤ 5 →
      (phase = 4 → x.hello = 2 ∨ x.hello = 3 → failed (.bringupPhaseTimeout p phase) x.hello) ∧
      (phase ≠ 4 ∨ x.hello = 0 → 2 ≤ x.attempts → failed (.bringupPhaseTimeout p phase) 1) ∧
      (phase ≠ 4 ∨ x.hello = 0 → x.attempts < 2 → ∃ t, exec (.bringupPhaseTimeout p phase) s = .next t ∧ t = { s with fabPorts := t.fabPorts } ∧
        t.portX p = { x with phase := 1, attempts := x.attempts + 1, probes := [], hello := 0 })) ∧
    (s.portState p = 1 ∨ s.portState p = 3 → x.phase < 5 → ∃ t, exec (.linkHello p port coord shape id) s = .next t ∧ s.SameMem t ∧
      t.portState p = s.portState p ∧ (∃ m, Emit.control p 0x10 [p, s.coord, s.shape, s.fabId, m] ∈ t.out) ∧
      (if port ≠ p ^^^ 1 ∨ coord ≠ stepCoord s.shape s.coord p then t.portX p = { x with phase := 4, hello := 2 }
       else if shape ≠ s.shape then t.portX p = { x with phase := 4, hello := 3 }
       else t.portX p = { x with phase := 5, hello := 0, probes := [] } ∧ t.ctlGet (portOff p 0x10) = word (id % 2 ^ 14 + 2 ^ 14))) ∧
    (s.portState p = 1 → x.phase = 5 →
      exec (.delayProbe p (.partner v)) s = .next (s.emit (.control p 0x11 [v])) ∧
      (l.length < 16 → ∃ t, exec (.delayProbe p (.echo v)) s = .next t ∧ t.portX p = { x with probes := l } ∧ (∃ m, Emit.control p 0x11 [m] ∈ t.out) ∧
        t = { s with fabPorts := t.fabPorts, freeCtr := t.freeCtr, out := t.out }) ∧
      (16 ≤ l.length → d ≤ 6400 → ∃ t, exec (.delayProbe p (.echo v)) s = .next t ∧ at_ t 2 0 ∧ t.ctlFld (portOff p 0x18) 0 20 = d ∧
        (s.portsIdle = false → s.occupied p 0 < 64 → s.slotRuns p = none → Emit.control p 0x12 [64 - s.occupied p 0, 0, 0, 0, 0] ∈ t.out)) ∧
      (16 ≤ l.length → 6400 < d → failed (.delayProbe p (.echo v)) 6)) ∧
    (s.portState p = 3 → x.phase = 5 → 16 ≤ l.length → d ≤ 6400 →
      ∃ t, exec (.delayProbe p (.echo v)) s = .next t ∧ t.portState p = 3 ∧ (t.portX p).phase = 6 ∧ t.ctlFld (portOff p 0x18) 0 20 = d) ∧
    (s.portUp p = true → ∃ t, exec (.linkAlignLost p) s = .next t ∧ at_ t 3 0 ∧ (t.portX p).replay = x.replay ∧ (t.portX p).phase = 2 ∧
      t.ctlFld (portOff p 8) 9 8 = min (s.ctlFld (portOff p 8) 9 8 + 1) 255) ∧
    (∃ t, exec (.linkReset p) s = .next t ∧ at_ t 0 0 ∧ (t.portX p).replay = [] ∧ (t.portX p).queue = x.queue.filter OutPkt.stays ∧ (t.portX p).credit = []) ∧
    (s.portState p = 3 → failed (.retrainDone p false) 4 ∧
      (x.phase = 6 → ∃ t, exec (.retrainDone p true) s = .next t ∧ at_ t 2 0 ∧ (∃ r, (t.portX p).replay = x.replay ++ r) ∧
        (∀ e, e ∈ x.replay → Emit.flit p { e.1 with ack := x.lastRx } e.2 ∈ t.out) ∧
        (s.inFabric = true → x.nbrIn = true →
          (t.portX p).rejoin = some (if s.fabId < s.nbrId p then some (s.now + s.ctlFld 0x200028 9 5) else none) ∧
          (s.fabId < s.nbrId p → s.portsIdle = false → Emit.control p 0x1D [(s.now + s.ctlFld 0x200028 9 5) % 2 ^ 36] ∈ t.out))))

/-- Flits and credits (R293, R296, R298, R300, R301, R303): a flit that fails its check or is out of order is discarded with one NAK; one in order advances the expected SEQ and is acknowledged, and an acknowledgement empties the replay buffer up to its flit; a packet for another device goes out on the port and virtual channel of its route against its credits, waits there without them, or is answered by UNREACHABLE; a reserved TYPE is counted; the eighth NAK in succession for one flit starts retraining. Completes: FLIT_RECEIVE, CREDIT, NAK, ROUTE_AT. -/
def Obligations.FlitsAreAcceptedInOrder : Prop :=
  ∀ (s : State) (p o v seq tick a : Nat) (b : List Byte) (f : Flit) (dt d : Option Nat) (l : List Nat) (e : Flit × Option Nat) (l1 l2 : List (Flit × Option Nat)),
    let x := s.portX p
    let n := if x.naks.1 = seq ∧ x.naks.2 ≠ 0 then x.naks.2 + 1 else 1
    let old := Tbl.get [] x.partials f.vc
    let k := packetOfBytes f.payload
    let here : OutPkt := { vc := f.vc, packet := k, body := (f.payload.drop 16).take k.len, detour := if 3 ≤ f.vc then dt else none,
                           arrive := some (p, f.vc), input := p }
    s.portUsed p = true → s.portUp p = true →
    (flitRead b = some f → f.idle = false → 5 ≤ f.vc ∨ f.seq ≠ x.rxSeq →
      (x.nakSent = true → exec (.flitReceive p (b, dt)) s = .next s) ∧
      (x.nakSent = false → ∃ t, exec (.flitReceive p (b, dt)) s = .next t ∧ (t.portX p).nakSent = true ∧ (t.portX p).rxSeq = x.rxSeq ∧ s.SameMem t ∧
        (s.portsIdle = false → Emit.control p 0x13 [x.rxSeq] ∈ t.out))) ∧
    (flitRead b = none → ∃ t, exec (.flitReceive p (b, dt)) s = .next t ∧
      t.ctlFld (portOff p 0x20) 0 12 = min (s.ctlFld (portOff p 0x20) 0 12 + 1) 4095 ∧ (t.portX p).rxSeq = x.rxSeq ∧ (t.portX p).nakSent = true) ∧
    (flitRead b = some f → f.idle = true ∨ (f.vc < 5 ∧ f.seq = x.rxSeq) → ∃ t, exec (.flitReceive p (b, dt)) s = .next t ∧
      (f.ack = some a → x.replay = l1 ++ e :: l2 → e.1.seq = a → (∀ g, g ∈ l1 → g.1.seq ≠ a) → ∃ r, (t.portX p).replay = l2 ++ r) ∧
      (f.idle = false → (t.portX p).rxSeq = (x.rxSeq + 1) % 4096 ∧ (t.portX p).nakSent = false ∧ (t.portX p).lastRx = some f.seq ∧
        (s.portsIdle = false → (t.portX p).ackDue = false ∧ ∃ g c, Emit.flit p g c ∈ t.out ∧ g.ack = some f.seq) ∧
        (f.eop = false → f.sop = true ∨ old ≠ [] → Tbl.get [] (t.portX p).partials f.vc = if f.sop then f.payload else old ++ f.payload) ∧
        (f.sop = true → f.eop = true →
          (typeKnown k.typ = false → t.ctlFld (portOff p 0x20) 24 12 = min (s.ctlFld (portOff p 0x20) 24 12 + 1) 4095) ∧
          (typeKnown k.typ = true → linkLocal k.typ = false → k.dest ≠ s.fabId → flitsOf k = 1 → f.payload.length = 244 →
            (s.routeOf k.dest here.detour here.arrive = none → k.typ ≠ 0x1C → Emit.packet 0x1C k.src k.sflow k.dflow 0 (bytesOf k.pseq 2) ∈ t.out) ∧
            (s.routeOf k.dest here.detour here.arrive = some (o, v, d) → (s.portX o).queue = [] → s.slotRuns o = none → o < 10 →
              let there : OutPkt := { here with vc := if 0x10 ≤ k.typ ∧ v < 3 then 0 else v, detour := d }
              (s.canGo o there = true → (s.arbX (454 + o)).lock = none → ∃ g, Emit.flit o g d ∈ t.out ∧ g.vc = there.vc ∧
                g.sop = true ∧ g.eop = true ∧ g.seq = (s.portX o).txSeq % 4096 ∧ g.payload = (packetBytes k ++ there.body).take 244) ∧
              (Tbl.get 0 (s.portX o).credit there.vc = 0 → (t.portX o).queue = [there])))))) ∧
    ((∀ q, (s.portX q).queue = [] ∧ (s.portX q).owed = []) → ∃ t, exec (.credit p l) s = .next t ∧
      (∀ v, v < 5 → Tbl.get 0 (t.portX p).credit v = Tbl.get 0 x.credit v + l.getD v 0) ∧ t = { s with fabPorts := t.fabPorts }) ∧
    (n < 8 → ∃ t, exec (.nak p seq) s = .next t ∧ (t.portX p).naks = (seq, n) ∧ t.portState p = 2 ∧
      t.ctlFld (portOff p 0x20) 12 12 = min (s.ctlFld (portOff p 0x20) 12 12 + 1) 4095 ∧
      ∀ g, g ∈ x.replay.dropWhile (fun g => g.1.seq != seq) → Emit.flit p { g.1 with ack := x.lastRx } g.2 ∈ t.out) ∧
    (8 ≤ n → ∃ t, exec (.nak p seq) s = .next t ∧ t.portState p = 3 ∧ (t.portX p).replay = x.replay) ∧
    (s.inFabric = true → x.rejoin.isSome = true → ∃ t, exec (.routeAt p tick) s = .next t ∧
      (t.portX p).rejoin = some (some (match s.tickAhead (word tick) with | some d => s.now + d | none => s.now)) ∧
      t = { s with fabPorts := t.fabPorts })

/-- Membership (R301, R305–R310, R312–R315, R41): ENABLE with a valid id starts TRAINING and a cleared ENABLE ends everything; settled ports give QUIET; ADMIT is flooded for tick now + ADMIT_LEAD and takes effect at that tick; DRAIN ends in OUT_OF_SERVICE at the flooded LEAVE, and REJOIN trains again; a quiet seed takes the master role; a notice is recorded and forwarded once and takes effect at its tick; the routes change at a boundary. Completes: FAB_ENABLE, FAB_AUTH, FAB_DRAIN, FAB_REJOIN, TRAINING_DONE, ADMIT_ANNOUNCE, ADMIT_AT_TICK, DRAIN_COMPLETE, LEAVE_AT_TICK, SEED_TAKEOVER, BEACON, FLOOD, NOTICE_EFFECT, PORT_LOST, ROUTE_UPDATE. -/
def Obligations.MembershipChangesAtFloodedTicks : Prop :=
  ∀ (s : State) (by_ : Agent) (p q st t0 : Nat) (best : Option (Nat × Nat)) (n : BitVec 64) (on child : Bool),
    let enabled := (s.ctlGet 0x200000).getLsbD 0
    let lead := s.now + s.ctlFld 0x200028 9 5
    let member (t : State) (id : Nat) : Bool := Tbl.get false t.fab.members id
    let pend (t : State) : Nat := t.ctlFld 0x200008 3 1
    let id := noticeOrigin n
    (s.agentLive by_ = true → s.ctlDenied (s.agentLevel by_) 0x200000 = false →
      (s.fabState = 0 → s.ctlFld 0x200010 14 1 = 1 → ∃ t, exec (.fabEnable by_ true) s = .next t ∧ t.fabState = 1 ∧ (t.ctlGet 0x200000).getLsbD 0 = true) ∧
      (s.fabState ≠ 0 → (∃ t, exec (.fabEnable by_ false) s = .next t ∧ t.fabState = 0 ∧ t.ctlGet 0x200050 = 0#36 ∧ t.ctlGet 0x200048 = word (15 * 2 ^ 19)) ∧
        (enabled = true → ∃ t, exec (.fabAuth by_ on) s = .next t ∧ (t.ctlGet 0x200000).getLsbD 1 = on ∧ t = { s with ctl := t.ctl })) ∧
      (enabled = true → s.fabState = 3 → (∀ r, r ∈ s.remote → r.pseq.isSome = true) →
        ∃ t, exec (.fabDrain by_) s = .next t ∧ t.fabState = 4 ∧ t.fab.drainEnd = some (s.now + s.ctlFld 0x200028 26 8)) ∧
      (enabled = true → s.fabState = 5 → ∃ t, exec (.fabRejoin by_) s = .next t ∧ t.fabState = 1)) ∧
    (s.fabState = 1 → s.fab.leaveAt = none → s.portsSettled = true → s.upPorts ≠ [] → ∃ t, exec .trainingDone s = .next t ∧ t.fabState = 2) ∧
    (s.fabState = 2 → pend s = 0 → s.fab.leaveAt = none → s.admitOk = true → ∃ t, exec .admitAnnounce s = .next t ∧ pend t = 1 ∧ t.fabState = 2 ∧
      t.ctlGet 0x200040 = word lead ∧ ∃ e, e ∈ t.fab.seen ∧ sameNotice e.1 (noticeOf s.fabId 0 0 lead) = true) ∧
    (s.fabState = 2 → pend s = 1 → s.fab.leaveAt = none → (s.admitOk = true → s.tickDue (s.ctlGet 0x200040) = true →
        ∃ t, exec .admitAtTick s = .next t ∧ t.fabState = 3 ∧ pend t = 0 ∧ member t s.fabId = true) ∧
      (s.admitOk = false → ∃ t, exec .admitAtTick s = .next t ∧ t.fabState = 2 ∧ pend t = 0 ∧
        ∃ e, e ∈ t.fab.seen ∧ sameNotice e.1 (noticeOf s.fabId 1 0 (s.ctlGet 0x200040).toNat) = true)) ∧
    (s.fabState = 4 → s.fab.leaveAt = none →
      (∀ f, f ∈ s.activeFlows → s.flowOut f = 0 ∧ (s.flowX f).held = []) ∨ (∃ d, s.fab.drainEnd = some d ∧ d ≤ s.now) →
      ∃ t, exec .drainComplete s = .next t ∧ t.fab.leaveAt = some lead ∧ t.ctlGet 0x200040 = word lead ∧
        ∃ e, e ∈ t.fab.seen ∧ sameNotice e.1 (noticeOf s.fabId 1 0 lead) = true) ∧
    (s.fab.leaveAt = some t0 → t0 ≤ s.now → (s.ctlGet 0x08).getLsbD 2 = true ∨ s.inFabric = false →
      ∃ t, exec .leaveAtTick s = .next t ∧ t.fabState = 5 ∧ member t s.fabId = false ∧ t.fab.leaveAt = none ∧ t.fab.idleAt = some (s.now + 1)) ∧
    (s.fabState = 2 → s.ctlFld 0x200028 0 1 = 1 → s.ctlFld 0x00 0 2 = 2 → s.ctlFld 0x200008 4 1 = 0 → s.ctlFld 0x200028 1 8 ≤ s.fab.quiet →
      ∃ t, exec .seedTakeover s = .next t ∧
        (if s.sched.active.isSome then t.ctlFld 0x08 5 1 = 1
         else t.ctlFld 0x200008 4 1 = 1 ∧ t.syncMaster = some s.fabId ∧ t.ctlFld 0x08 0 2 = 2 ∧ (t.ctlGet 0x08).getLsbD 2 = true)) ∧
    (s.portUp p = true → p < 10 → ∃ t, exec (.beacon p st (best, child)) s = .next t ∧ (t.portX p).best = best ∧ (t.portX p).child = child ∧ t.ctlFld (portOff p 8) 6 3 = st % 8 ∧
      t.ctlGet 0x200048 = discWord t.bestOf) ∧
    (∀ c d, s.bestOf = some c → q ∈ s.upPorts → (s.portX q).best = some d → d.2 + 1 ≤ 28 → s.fab.held.contains d.1 = false →
      better (d.1, d.2 + 1, q) c = false) ∧
    (s.portUp p = true → (∀ e, e ∈ s.fab.seen → sameNotice e.1 n = false) → ∃ t, exec (.flood p [n]) s = .next t ∧ t.fab.seen = s.fab.seen ++ [(n, s.now)] ∧
      t.fab.due = s.fab.due ++ [(n, if s.tickDue (noticeTick n) then some (s.now + 1) else none)] ∧
      (q ∈ s.upPorts → q ≠ p → (s.portX q).floods < s.ctlFld 0x200030 12 12 → (s.portX q).backlog = [] → s.portsIdle = false →
        .control q 0x16 [n.toNat] ∈ t.out)) ∧
    (s.portUp p = true → (∃ e, e ∈ s.fab.seen ∧ sameNotice e.1 n = true) → exec (.flood p [n]) s = .next s) ∧
    (s.fab.due = [(n, none)] → s.tickDue (noticeTick n) = true → (∀ p, (s.portX p).leftUp = false) → s.fab.leaveAt = none → ∃ t, exec .noticeEffect s = .next t ∧ t.fab.due = [] ∧
      (noticeKind n = 0 → member t id = true) ∧ (noticeKind n = 1 → member t id = false) ∧ (noticeKind n = 2 → id ∈ t.fab.held) ∧
      (noticeKind n = 3 → (s.nbrOf id (n.extractLsb' 16 4).toNat, id) ∈ t.fab.lost)) ∧
    ((s.portX p).leftUp = true → ∃ t, exec (.portLost p) s = .next t ∧ (t.portX p).leftUp = false ∧
      ∃ e, e ∈ t.fab.seen ∧ sameNotice e.1 (noticeOf s.fabId 3 p (s.now + 1)) = true) ∧
    (s.fab.routeTick ≠ s.now → ∃ t, exec .routeUpdate s = .next t ∧ t.fab.routeTick = s.now ∧
      (let u := s.boundaryAdmit
       t.ctlGet 0x200050 = word (u.routesAt s.now) ∧
       (q < 10 → u.inFabric = true → (u.routesAt s.now).testBit q = true → (s.ctlFld 0x200050 0 10).testBit q = false → (t.portX q).granted = true)))

/-- Flows (R311, R316–R319): LISTEN, OPEN, CLOSE and RESET move a context as R317 says; a FLOW_OPEN is accepted by a context that listens for or opens toward its sender and refused with reason 2 otherwise; a refusal makes the requester wait; a context that breaks tells its partner where R318 says so and fails its requests. A device that is not in the fabric answers NOT_ADMITTED within its budget. Completes: FAB_FLOW_CMD.LISTEN, OPEN, CLOSE and RESET, FLOW_OPEN, FLOW_ACCEPT, FLOW_REFUSE, NOT_ADMITTED, FLOW_CLOSE, UNREACHABLE, REORDER_TIMEOUT, FLOW_CLOSE_DRAINED, BACKOFF_EXPIRY, OPEN_TIMEOUT. -/
def Obligations.FlowsOpenWaitAndBreak : Prop :=
  ∀ (s : State) (by_ : Agent) (f src sflow reason after pseq : Nat) (q : RemReq),
    let dev := s.flowDev f
    let peer := s.flowPeer f
    let why (t : State) : Nat := t.ctlFld (flowOff f 0) 6 4
    let say (t : State) (typ : Nat) (body : List Byte) : Prop := .packet typ dev peer f 0 body ∈ t.out
    let closed (t : State) (body : Nat) : Prop := say t 0x1B (bytesOf body 8)
    let opening (c : Instr) (tries : Nat) : Prop := ∃ t, exec c s = .next t ∧ t.flowState f = 2 ∧ t.ctlFld (flowOff f 0) 10 8 = tries ∧
      (t.flowX f).sentAt = s.now ∧ say t 0x17 (bytesOf s.fabId 8 ++ bytesOf f 8)
    let waits (c : Instr) (r n : Nat) : Prop := ∃ t, exec c s = .next t ∧ t.flowState f = 3 ∧ why t = r ∧
      t.ctlGet (flowOff f 0x20) = word (s.now + n) ∧ t = { s with ctl := t.ctl }
    let broken (c : Instr) (r : Nat) : Prop := ∃ u : State, exec c s = .next (u.flowFailAll f).pumpAll ∧ u.flowState f = 6 ∧ why u = r ∧
      (u.flowX f).held = [] ∧ u.remote = s.remote
    let opened (u : State) : Prop := u.flowState f = 4 ∧ why u = 0 ∧ u.ctlGet (flowOff f 0x10) = 0#36
    let retry := (if s.ctlFld 0x200008 3 1 = 1 then (s.ctlGet 0x200040 - word s.now).toNat else s.ctlFld 0x200028 14 8) + src % s.ctlFld 0x200028 22 4
    let refused (c : Instr) (after : State → State) (other : Nat) : Prop :=
      ∃ u l, exec c s = .next (after u) ∧ u.out = l ++ .packet 0x1A src other f 0 (bytesOf retry 2) :: s.out
    let takes : Prop := (s.flowState f = 1 ∨ s.flowState f = 2) ∧ dev = src ∧ (s.ctlFld (flowOff f 0) 5 1 = 1 ∨ peer = sflow)
    f < 16384 →
    (s.agentLive by_ = true → s.ctlDenied (s.agentLevel by_) 0x200068 = false →
      (s.flowState f = 0 → ∃ t, exec (.flowCmdListen by_ f) s = .next t ∧ t.flowState f = 1 ∧ t = { s with ctl := t.ctl }) ∧
      (s.flowState f = 0 → s.fabState = 3 → opening (.flowCmdOpen by_ f) 1) ∧
      (s.flowState f = 0 → s.fabState ≠ 3 → ∃ t, exec (.flowCmdOpen by_ f) s = .next t ∧ t.flowState f = 3 ∧ why t = 1 ∧ (t.flowX f).ownWait = true) ∧
      (1 ≤ s.flowState f → s.flowState f ≤ 4 →
        (s.flowOut f = 0 → ∃ t, exec (.flowCmdClose by_ f) s = .next t ∧ t.flowState f = 0 ∧ closed t 0) ∧
        (s.flowOut f ≠ 0 → ∃ t, exec (.flowCmdClose by_ f) s = .next t ∧ t.flowState f = 5)) ∧
      (∃ u : State, exec (.flowCmdReset by_ f) s = .next (u.flowFailAll f).pumpAll ∧ u.flowState f = 0 ∧ u.remote = s.remote)) ∧
    (s.fabState = 3 →
      (takes → sflow < 16384 →
        ∃ u : State, exec (.flowOpen src sflow f) s = .next (u.pump f).ceKickAll ∧ opened u ∧ u.flowPeer f = sflow ∧ .packet 0x18 src sflow f 0 [] ∈ u.out) ∧
      (¬ takes → exec (.flowOpen src sflow f) s = .next (s.controlTo 0x19 src sflow f 0 (2#8 :: bytesOf (s.ctlFld 0x200028 14 8) 2)).ceKickAll)) ∧
    (s.fabState = 4 → exec (.flowOpen src sflow f) s = .next (s.controlTo 0x19 src sflow f 0 (3#8 :: bytesOf (s.ctlFld 0x200028 14 8) 2)).ceKickAll) ∧
    (s.inFabric = true → s.flowState f = 2 → dev = src →
      (peer = sflow → ∃ u : State, exec (.flowAccept src sflow f) s = .next (u.pump f).ceKickAll ∧ opened u) ∧
      waits (.flowRefuse src f reason after) (reason % 16) after ∧ waits (.notAdmitted src f after) 1 after) ∧
    (s.inFabric = true → dev = src → s.flowState f = 4 → broken (.flowClose src f) 8) ∧
    (s.inFabric = true → dev = src → s.flowState f = 5 → ∃ u : State, exec (.flowClose src f) s = .next (u.flowFailAll f) ∧ u.flowState f = 0) ∧
    (s.inFabric = false → s.fab.refusals < s.ctlFld 0x200030 0 12 →
      refused (.flowOpen src sflow f) State.ceKickAll sflow ∧ refused (.flowAccept src sflow f) State.ceKickAll sflow ∧
      refused (.flowRefuse src f reason after) id peer ∧ refused (.notAdmitted src f after) id peer ∧ refused (.flowClose src f) id peer ∧
      refused (.unreachable (src, ⟨f, pseq⟩)) id 0) ∧
    (s.flowState f = 4 ∨ s.flowState f = 5 →
      (s.inFabric = true → broken (.unreachable (src, ⟨f, pseq⟩)) 4) ∧ ((s.flowX f).held ≠ [] → broken (.reorderTimeout f) 5)) ∧
    (s.flowState f = 5 → s.flowOut f = 0 → ∃ t, exec (.flowCloseDrained f) s = .next t ∧ t.flowState f = 0 ∧ closed t 0) ∧
    (s.flowState f = 3 → (s.flowX f).ownWait = false → s.tickDue (s.ctlGet (flowOff f 0x20)) = true →
      opening (.backoffExpiry f) (min (s.ctlFld (flowOff f 0) 10 8 + 1) 255)) ∧
    (s.flowState f = 2 → (s.flowX f).sentAt + s.ctlFld 0x200030 24 4 ≤ s.now →
      waits (.openTimeout f) 9 (min (2 ^ s.ctlFld (flowOff f 0) 10 8) 64)) ∧
    ((∀ r, r ∈ s.remote → r.flow ≠ f) → s.flowFailAll f = s.ctlPut (flowOff f 0x18) 0 13 0) ∧
    (s.remote = [q] → q.flow = f → q.precise = true → s.flowFailAll f =
      (({ s with remote := [] } : State).trapped q.core 0x03 ((XErr.bus 4).info (if q.access = 1 then .write else .read) (2 * q.dest.code)) q.addr).ctlPut (flowOff f 0x18) 0 13 0)

/-- Collective queues (R327, R329, R330, R345, R351): a queue that looks and owns the descriptor at HEAD lists its bucket and moves HEAD; a NOP is complete at once with status 0, and a descriptor that is malformed with DESC_ERROR; START, STOP, RESET and a doorbell move the queue; SH_ADV makes the current shard buffer the previous one and advances the epoch, or raises its event while a previous one is held. Completes: CE_NOP, REDUCE_SCATTER, ALL_GATHER, ALL_REDUCE, ALL_TO_ALL, PERMUTE, CE_QUEUE_DOORBELL, CE_QUEUE_START, CE_QUEUE_STOP, CE_QUEUE_RESET, SH_ADV, SH_HOLD_EXPIRY. -/
def Obligations.CollectiveQueuesTakeDescriptors : Prop :=
  ∀ (s : State) (by_ : Agent) (q n op : Nat) (c : Instr) (l a : List Word) (segs : List Nat) (v : Word),
    let head := s.ctlFld (ceOff q 0x30) 0 16 % s.ceRing q
    let moved (t : State) : Prop := t.ctlFld (ceOff q 0x30) 0 16 = (head + 1) % s.ceRing q
    let mode (t : State) : Nat := t.ctlFld (ceOff q 0x18) 0 2
    let look (t : State) : Bool := Tbl.get false t.ce.look q
    let ctrl := l.getD 0 0#36
    let aux := l.getD 7 0#36
    let arg := mkPair (l.getD 2 0#36) (l.getD 1 0#36)
    let b : CeBucket :=
      { id := s.ce.next, queue := q, index := head, ctrl := ctrl, dst := mkPair (l.getD 4 0#36) (l.getD 3 0#36), len := (l.getD 5 0#36).toNat
        fmt := l.getD 6 0#36, arg := arg, group := (ctrl.extractLsb' 8 6).toNat, bucket := (ctrl.extractLsb' 14 12).toNat
        step := (aux.extractLsb' 12 16).toNat, sem := (aux.extractLsb' 0 12).toNat, exp0 := ((l.getD 6 0#36).extractLsb' 12 8).toNat }
    let d : CeBucket :=
      { b with hdr := a.getD 0 0#36, carryBuf := mkPair (a.getD 3 0#36) (a.getD 2 0#36), recvCap := (a.getD 4 0#36).toNat, start := s.ceStart (a.getD 1 0#36) }
    let free (r : Nat) : Prop := s.agentLive by_ = true ∧ s.ctlDenied (s.agentLevel by_) r = false
    (q < 8 → s.ctlFld 0x70000 0 1 = 1 → mode s ≠ 0 → look s = true ∨ s.ctlFld (ceOff q 0x18) 3 1 = 1 → (s.ce.buckets.filter (fun c => c.begun)).length < 64 →
      (∀ e, e ∈ s.ce.buckets → e.begun = true → e.queue = q → e.index ≠ head) →
      s.ceWords (s.cePair q 0x20 + BitVec.ofNat 72 (64 * head)) 8 = .ok l → ctrl.getLsbD 7 = true →
      ((ctrl.extractLsb' 0 4).toNat = 0 ∨ 5 < (ctrl.extractLsb' 0 4).toNat → ∃ t, exec (.ceNop q) s = .next t ∧ moved t ∧
        t.ce.buckets = s.ce.buckets ++ [{ b with status := some (if s.ceBadDesc b aux then 1 else 0) }]) ∧
      ((c, op) ∈ [(Instr.reduceScatter q, 1), (.allGather q, 2), (.allReduce q, 3), (.allToAll q, 4), (.permute q, 5)] →
        (ctrl.extractLsb' 0 4).toNat = op →
        (s.ceBadDesc b aux = true → ∃ t, exec c s = .next t ∧ moved t ∧ t.ce.buckets = s.ce.buckets ++ [{ b with status := some 1 }]) ∧
        (s.ceBadDesc b aux = false → s.ceWords arg 8 = .ok a → s.ceSegs d (s.geo d.group []).size = .ok segs → s.ceBad d (a.drop 5) segs = false →
        (∀ e, e ∈ s.ce.buckets → e.begun = true ∨ e.isFor d.group d.bucket d.step = false) →
        ∃ (u : State) (e : CeBucket), exec c s = .next ((u.ceOpen e).ceLateArrivals e.group e.bucket e.step) ∧ moved u ∧
          u.ce.buckets = s.ce.buckets ++ [e] ∧ e.deadline = d.start + u.cgDeadline d.group ∧
          e = { d with past := decide (e.deadline ≤ s.now), segs := segs, order := s.ctlFld 0x70008 7 2, detached := e.detached, deadline := e.deadline, rep := e.rep }))) ∧
    (q < 8 → free (ceOff q 0x10) → ∃ t, exec (.ceQueueDoorbell by_ q) s = .next t ∧ t.ctlFld (ceOff q 0x18) 3 1 = 1 ∧ t = { s with ctl := t.ctl }) ∧
    (q < 8 → free (ceOff q 8) →
      (mode s = 0 → ∃ t, exec (.ceQueueStart by_ q) s = .next t ∧ look t = true ∧
        mode t = if s.ce.buckets.any (fun e => e.begun && e.queue == q) then 2 else 1) ∧
      (∃ t, exec (.ceQueueStop by_ q) s = .next t ∧ mode t = 0 ∧ look t = false) ∧
      (mode s = 0 → s.ctlFld (ceOff q 0x18) 4 7 = 0 → ∃ t, exec (.ceQueueReset by_ q) s = .next t ∧ t.ctlGet (ceOff q 0x30) = 0#36)) ∧
    (n < 512 → free (shOff n 0x28) →
      ((s.ctlGet (shOff n 0)).getLsbD 1 = false → ∃ t, exec (.shAdv by_ n v) s = .next t ∧ t.ctlGet (shOff n 0x18) = s.ctlGet (shOff n 0x10) ∧
        t.ctlGet (shOff n 0x10) = v &&& 0xFFFFFFF#36 ∧ t.ctlGet (shOff n 8) = s.ctlGet (shOff n 8) + 1#36 ∧ (t.ctlGet (shOff n 0)).getLsbD 1 = true) ∧
      ((s.ctlGet (shOff n 0)).getLsbD 1 = true → ∃ t, exec (.shAdv by_ n v) s = .next t ∧ (t.ctlGet (shOff n 0)).getLsbD 14 = true ∧
        (t.ctlGet 0x70010).getLsbD 6 = true ∧ t.ctlGet (shOff n 0x10) = s.ctlGet (shOff n 0x10))) ∧
    (n < 512 → s.tickDue (s.ctlGet (shOff n 0x20)) = true → ∃ t, exec (.shHoldExpiry n) s = .next t ∧ (t.ctlGet (shOff n 0)).getLsbD 1 = false ∧
      t = { s with ctl := t.ctl })

/-- Collective packets in PSEQ order (R318, R334, R336, R342, R345): a block that passes its check is acknowledged, waits for the local side or goes on as the sum with it; one that fails is asked for again; an acknowledgement frees the retained packet, a resend request sends it again with RETRY set, and after three the bucket ends with VERNIER_FAIL; gathered bytes land at their offset; backup requests are answered with the own contribution or kept. Completes: BLOCKS, DATA, ACK, RESEND, BACKUP_REQ, BACKUP_DATA, EPOCH_MISMATCH. -/
def Obligations.CollectivePacketsMoveBlocks : Prop :=
  ∀ (s : State) (flow pseq i pa total : Nat) (h : CollHdr) (minus : Bool) (c : CeBucket) (u : CBlock) (p : CeSend) (own : List CBlock) (l : List Byte),
    let g := s.geo c.group c.segs
    let key := stepKey i h.offset
    let v := Tbl.get noBlock c.vals key
    let find (t : State) : Option CeBucket := t.ceFind h.group h.bucket h.step
    let body (q : CeSend) : List Byte := collBytes q.sub q.blocks.length q.hdr ++ q.blocks.flatMap CBlock.bytes ++ q.bytes
    let said (t : State) (q : CeSend) : Prop := ∃ n, .packet 5 (s.flowDev q.flow) (s.flowPeer q.flow) q.flow n (body q) ∈ t.out
    let ring : Prop := h.offset < c.nblk ∧ g.held i h.offset = true ∧ g.minus i h.offset = minus ∧ g.digit i g.rank ≠ g.start i h.offset
    let home := c.dst + BitVec.ofNat 72 h.offset
    s.flowState flow = 4 → s.inFabric = true → flow < 16384 → pseq = s.rxExpect flow → (s.flowX flow).held = [] →
    (find s = some c → c.status = none → s.ceInput g h.group flow = some (i, minus) → ring →
      (residueOf u.ms = u.vernier → v = noBlock → ∃ t, exec (.blocks ⟨flow, pseq⟩ h [u] .ok) s = .next t ∧ said t { flow := flow, sub := 2, hdr := h } ∧
        find t = some { c with waits := Tbl.set none c.waits key (some u) }) ∧
      (residueOf u.ms = u.vernier → v ≠ noBlock → g.digit i g.rank ≠ g.digit i (g.owner h.offset) →
        ∃ t q, exec (.blocks ⟨flow, pseq⟩ h [u] .ok) s = .next t ∧ said t { flow := flow, sub := 2, hdr := h } ∧
          q.flow = s.axisFlow c.group (g.axes.getD i 0) minus ∧ q.blocks = [combine c.exp0 0 u v] ∧
          q.hdr = { c.collHdr g.rank with offset := h.offset, minus := minus } ∧ (q ∈ t.ce.unsent ∨ q ∈ t.ce.retain)) ∧
      (residueOf u.ms ≠ u.vernier → Tbl.get 0 c.fails key < 3 → ∃ t, exec (.blocks ⟨flow, pseq⟩ h [u] .ok) s = .next t ∧ said t { flow := flow, sub := 3, hdr := h } ∧
        find t = some { c with fails := Tbl.modify 0 c.fails key (· + 1) })) ∧
    (u.exp = c.exp0 → v.exp = c.exp0 → (∀ x, x ∈ u.ms.zip v.ms → mantOk (x.1 + x.2) = true) → u.cnt + v.cnt < 2 ^ 14 →
      (combine c.exp0 0 u v).ms = (u.ms.zip v.ms).map (fun x => x.1 + x.2) ∧ (combine c.exp0 0 u v).cnt = u.cnt + v.cnt ∧
      (combine c.exp0 0 u v).exp = c.exp0 ∧ (combine c.exp0 0 u v).raises = 0) ∧
    (s.ce.unsent = [] → ∃ t, exec (.ack ⟨flow, pseq⟩ h) s = .next t ∧ t.ce.retain = s.ce.retain.filter (fun q => !q.answers flow h) ∧ t.ctlFld 0x70008 9 1 = 0) ∧
    (s.ce.retain.find? (fun q => q.answers flow h) = some p →
      (p.resent < 3 → ∃ t, exec (.resend ⟨flow, pseq⟩ h) s = .next t ∧ { p with resent := p.resent + 1, blocks := p.blocks.map (fun b => b.mark flRetry) } ∈ t.ce.retain ∧
        said t { p with blocks := p.blocks.map (fun b => b.mark flRetry) }) ∧
      (3 ≤ p.resent → find s = some c → ∃ t, exec (.resend ⟨flow, pseq⟩ h) s = .next t ∧ find t = some { c with status := some 3 } ∧
        (t.ctlGet 0x70010).getLsbD 0 = true)) ∧
    (find s = some c → c.begun = true → c.status = none → h.dstrank = h.srcrank → c.op ≠ 4 → c.op ≠ 5 → s.ceInput g h.group flow = some (i, minus) →
      pieces (home, l.length) = [(home, l.length)] → s.plainAt 1 .write home l.length = .ok pa → s.region pa = .gddr →
      ∃ t, exec (.data ⟨flow, pseq⟩ h total l) s = .next t ∧ (∀ k, t.byteAt k = writesAt [(pa, l)] (s.byteAt k) k) ∧
        find t = some { c with got := Tbl.modify 0 c.got h.srcrank (· + l.length) }) ∧
    (find s = some c → c.status = none → c.op = 2 → c.misrank = none → s.ceInput g h.group flow = some (i, minus) →
      ∃ t d, exec (.epochMismatch ⟨flow, pseq⟩ h) s = .next t ∧ find t = some d ∧ d.misrank = some h.srcrank) ∧
    (find s = some c → c.own = some own →
      ∃ t, exec (.backupReq ⟨flow, pseq⟩ h) s = .next t ∧ ∀ q, q ∈ backupSends flow { h with srcrank := (s.geo h.group []).rank } own → q ∈ t.ce.unsent ∨ said t q) ∧
    (find s = none → (∀ k, k ∈ s.ce.kept → ¬ (k.1 = h.group ∧ k.2.1 = h.bucket ∧ k.2.2.1 = h.step)) →
      ∃ t, exec (.backupReq ⟨flow, pseq⟩ h) s = .next t ∧ t.ce = { s.ce with asks := s.ce.asks ++ [(flow, h.group, h.bucket, h.step)] }) ∧
    (find s = some c → c.status = none → c.contrib = .backupWait →
      let copy := Tbl.set noBlock c.copy h.offset u
      ((∃ b, b < c.nblk ∧ Tbl.get noBlock copy b = noBlock) →
        ∃ t, exec (.backupData ⟨flow, pseq⟩ h [u]) s = .next t ∧ find t = some { c with copy := copy }) ∧
      ((∀ b, b < c.nblk → Tbl.get noBlock copy b ≠ noBlock) →
        ∃ w d, exec (.backupData ⟨flow, pseq⟩ h [u]) s = .next (State.ceStand w d .backup).linksGo ∧ d.copy = copy ∧ d.id = c.id))

/-- Collective deadlines and completion (R329, R340–R343, R346): ready parts are taken in order and the last forms the local blocks; a contribution complete at its deadline stands; an incomplete one is dropped, added later, or asked of the backup device as POLICY says, or waited for under WAIT, and the same after the grace; a lost member ends the bucket; a finished bucket is recorded, frees its place and its flows' packets, or waits while the record queue is full. Completes: PART_TAKE, BUCKET_DEADLINE, BACKUP_GRACE_EXPIRY, CARRY_COMPLETE, MEMBER_LOST, BUCKET_COMPLETE. -/
def Obligations.CollectiveDeadlinesAndCompletion : Prop :=
  ∀ (s : State) (g b st exp0 pa : Nat) (segs : List Nat) (c : CeBucket) (k : CeCarry) (l : List CBlock) (t0 : State),
    let find (t : State) : Option CeBucket := t.ceFind g b st
    let policy := s.ctlFld (cgOff g 0) 6 2
    let tail := s.ctlFld (ceOff c.queue 0x48) 0 16
    let ready := s.ceReady c.arg c.parts c.step c.taken
    let seen := some (Tbl.get 0 s.semUps c.sem)
    (find s = some c → c.begun = true → c.contrib = .pending → c.status = none → c.hdr.getLsbD 17 = false → c.rep = none → s.ceNews c.sem c.seen = true →
      (¬ (c.reduces = true ∧ c.own = none ∧ c.parts ≤ (c.taken ++ ready).length) →
        ∃ u, exec (.partTake g b st) s = .next (State.ceKickAll u) ∧ find u = some { c with seen := seen, taken := c.taken ++ ready }) ∧
      (c.reduces = true → c.own = none → c.parts ≤ (c.taken ++ ready).length → s.ceForm c.arg (c.taken ++ ready) c.nblk c.exp0 c.sfmt = .ok l →
        ∃ u d, exec (.partTake g b st) s = .next (((State.ceTry u d).ceTakeLater g b st).ceKickAll) ∧ find u = some d ∧
          d = { c with seen := seen, taken := c.taken ++ ready, own := some l, doneTick := c.doneTick.or (some s.now) })) ∧
    (find s = some c → c.begun = true → c.reduces = true → c.contrib = .pending → c.rep = none → c.status = none → c.past = true → c.carry ≠ 1 → policy ≠ 0 →
      c.inTime = true → c.partFault = false → s.ceLateStep c = false → exec (.bucketDeadline g b st [] exp0) s = .next (s.ceStand c .onTime)) ∧
    (find s = none → s.ctlFld (cgOff g 0) 5 1 = 1 → policy ≠ 0 → s.ctlFld 0x70008 7 2 ≠ 2 → segs.length = (s.geo g []).size →
      ∃ u d, exec (.bucketDeadline g b st segs exp0) s = .next ((State.ceStand u d .dropped).ceLateArrivals g b st) ∧ find u = some d ∧ d.begun = false ∧
        d.segs = segs ∧ d.exp0 = exp0 % 256) ∧
    (find s = some c → c.begun = true → c.reduces = true → c.contrib = .pending → c.rep = none → c.status = none → c.past = true →
      c.carry ≠ 1 → c.inTime = false →
      (policy = 1 → ∃ u d, exec (.bucketDeadline g b st [] exp0) s = .next (State.ceStand u d .dropped) ∧ d = { c with late := true } ∧ (u.ceGroup g).lateStep = some st) ∧
      (policy = 2 → ∃ u d, exec (.bucketDeadline g b st [] exp0) s = .next (State.ceStand u d .addLater) ∧ d = { c with late := true } ∧
        ∃ k, k ∈ u.ce.carries ∧ k.group = c.group ∧ k.bucket = c.bucket ∧ k.step = c.step ∧ k.buf = c.carryBuf ∧ k.taken = c.taken) ∧
      (policy = 3 → ∃ t, exec (.bucketDeadline g b st [] exp0) s = .next t ∧ find t = some { c with contrib := .backupWait, late := true, askTick := s.now }) ∧
      (policy = 0 → exec (.bucketDeadline g b st [] exp0) s = .next s)) ∧
    (find s = some c → c.status = none → c.contrib = .backupWait → c.askTick + s.ctlFld (cgOff g 0x10) 28 8 ≤ s.now →
      ∃ u d, exec (.backupGraceExpiry g b st) s = .next (State.ceStand u d (if s.ctlFld (cgOff g 0) 8 1 = 1 then .addLater else .dropped)) ∧
        d = { c with late := true } ∧ (u.ctlGet 0x70010).getLsbD 4 = true) ∧
    (s.ce.carries.find? (fun k => k.group == g && k.bucket == b && k.step == st && !k.complete) = some k → k.parts ≤ k.taken.length →
      s.ceForm k.arg k.taken k.nblk k.exp0 k.sfmt = .ok l → s.ceStore k.buf (l.flatMap CBlock.bytes) = (t0, none) →
      s.ceFind g b ((st + 1) % 65536) = none →
      ∃ t, exec (.carryComplete g b st) s = .next t ∧ { k with complete := true } ∈ t.ce.carries ∧ t0.SameMem t) ∧
    (find s = some c → c.status = none → c.begun = true → s.cgLost g = true → ∃ t, exec (.memberLost g b st) s = .next t ∧
      find t = some { c with status := some 4 } ∧ (t.ctlGet 0x70010).getLsbD 1 = true ∧ ∀ q, q ∈ t.ce.unsent ∨ q ∈ t.ce.retain → q.isOf g b st = false) ∧
    (s.ce.buckets.find? (fun c => c.isFor g b st && c.begun && s.ceDone c) = some c → c.queue < 8 →
      ((tail + 1) % s.ceQueue c.queue = s.ctlFld (ceOff c.queue 0x50) 0 16 % s.ceQueue c.queue →
        ∃ t, exec (.bucketComplete g b st) s = .next t ∧ t.ctlFld (ceOff c.queue 0x18) 2 1 = 1 ∧ t.ce = s.ce) ∧
      ((tail + 1) % s.ceQueue c.queue ≠ s.ctlFld (ceOff c.queue 0x50) 0 16 % s.ceQueue c.queue →
        s.plainAt 1 .write (s.cePair c.queue 0x38 + BitVec.ofNat 72 (32 * tail)) 32 = .ok pa →
        ∃ t, exec (.bucketComplete g b st) s = .next t ∧ t.ce.buckets = s.ce.buckets.filter (fun d => d.id != c.id) ∧
          t.ctlFld (ceOff c.queue 0x48) 0 16 = (tail + 1) % s.ceQueue c.queue))

/-! ## Resilience, Ranas and management -/

/-- Step records (R379–R382, R385, R388–R393, R425, R426): EPH_OPEN opens a record at the next boundary with its STEP and ATTEMPT, entries land in the ring at the write position, the record closes at its commit tick or by a rollback, COMMIT_HELD stands while recovery is active, the mode changes between records, and a lineage search ends with its lowest hit. Completes: EPH_OPEN, RECORD_OPEN, EPH_COMMIT, STEP_COMMIT, EPH_MODE_CHANGE, EPH_NOTE, EPH_DIG_LEN, DIGEST_COMPLETE, EPH_RECOV_WRITE, BUDGET_EXPIRED, ROLLBACK_AT_TICK, LIN_FIND, LINEAGE_SEARCH_COMPLETE. -/
def Obligations.StepRecordsOpenAppendAndClose : Prop :=
  ∀ (s : State) (by_ : Agent) (v : Word) (step rb t0 d a n i : Nat) (r : List Nat),
    let status (t : State) (lo len : Nat) : Nat := t.ctlFld 0x60008 lo len
    let event (t : State) (b : Nat) : Prop := (t.ctlGet 0x60060).getLsbD b = true
    let wr := s.ctlFld 0x60018 0 33
    let rel := s.ctlFld 0x60020 0 33
    let rp := s.ctlFld 0x60070 0 33
    let entry (typ : Nat) (l : List Word) : List Byte := entryBytes typ (status s 5 16) (status s 21 8) l
    let fits (e : List Byte) : Prop := wr + e.length ≤ ringSize ∧ e.length < (if rel = wr then ringSize else (rel + ringSize - wr) % ringSize) ∧
      s.region (s.ringBase + wr) = .gddr
    let appended (t : State) (e : List Byte) : Prop :=
      (∀ k, t.byteAt k = writesAt [(s.ringBase + wr, e)] (s.byteAt k) k) ∧ t.ctlFld 0x60018 0 33 = (wr + e.length) % ringSize ∧ status t 4 1 = 0
    let may (o : Nat) : Prop := s.agentLive by_ = true ∧ s.ctlDenied (s.agentLevel by_) o = false
    let note := entry 0x06 [v &&& 0x3FFF#36, word s.now]
    let digest := entry 0x04 ([lo36 (selfPair a), hi36 (selfPair a), word n] ++ digestWords (shake256 (s.bytesAt a n) 32))
    (may 0x60028 → s.ephMode ≠ 0 → v.getLsbD 16 = true → s.ephOpen = false → s.eph.openReq = none →
      exec (.ephOpen by_ v) s = .next { s with eph := { s.eph with openReq := some (v.toNat % 65536, s.now) } }) ∧
    (s.eph.openReq = some (step, t0) → t0 < s.now → step < 65536 → s.ctlFld 0x60010 14 1 = 1 →
      (s.ephMode = 1 → ∃ t, exec .recordOpen s = .next t ∧ status t 2 1 = 1 ∧ status t 5 16 = step ∧ t.eph.openReq = none ∧ t.eph.openTick = s.now ∧
        status t 21 8 = if s.eph.rolledBack = true ∧ status s 5 16 = step then (status s 21 8 + 1) % 256 else 0) ∧
      (s.ephMode = 2 → (s.ctlFld 0x60000 2 1 = 0 ∧ s.ctlFld 0x08 0 2 = 2) ∨ (s.ctlFld 0x60000 2 1 = 1 ∧ s.ctlFld 0x08 0 2 = 0) →
        ((s.entryAt rp).1 = 1 ∧ (s.entryAt rp).2.2.1 = step → ∃ t, exec .recordOpen s = .next t ∧ status t 2 1 = 1 ∧ status t 5 16 = step ∧
          status t 21 8 = (s.entryAt rp).2.2.2 ∧ t.eph.start = rp ∧ s.SameMem t) ∧
        (¬ ((s.entryAt rp).1 = 1 ∧ (s.entryAt rp).2.2.1 = step) → ∃ t, exec .recordOpen s = .next t ∧ event t 4 ∧ s.SameMem t))) ∧
    (may 0x60030 → s.tickAhead v = some d → d ≠ 0 → s.ephMode ≠ 0 → s.ephOpen = true → s.eph.openTick < s.now + d →
      ∃ t, exec (.ephCommit by_ v) s = .next t ∧ t.ctlGet 0x60030 = v ∧ t.eph.commitAt = some (s.now + d)) ∧
    (s.eph.commitAt = some t0 → t0 ≤ s.now → s.ephOpen = true → ∃ t, exec .stepCommit s = .next t ∧ t.eph.commitAt = none ∧
      (if s.ctlFld 0x60058 0 1 = 1 then t.ephOpen = true ∧ event t 2 else t.ephOpen = false ∧ t.eph.rolledBack = false)) ∧
    (s.ephOpen = false → ∃ t, exec .ephModeChange s = .next t ∧ t.ephMode = s.ctlFld 0x60000 0 2 ∧ t.ctlFld 0x70008 7 2 = s.ctlFld 0x60000 0 2) ∧
    (may 0x60050 → s.ephOpen = true → s.ephMode = 1 → (v.extractLsb' 12 2).toNat ≠ 3 → fits note →
      ∃ t, exec (.ephNote by_ v) s = .next t ∧ appended t note) ∧
    (may 0x60048 → n ≠ 0 → n % 8 = 0 → v.toNat % 2 ^ 24 = n → status s 3 1 = 0 → ∃ t, exec (.ephDigLen by_ v) s = .next t ∧ status t 3 1 = 1 ∧
      t.eph.digest = some (localOf (mkPair (s.ctlGet 0x60040) (s.ctlGet 0x60038)), n, if s.ephOpen then s.eph.openTick + 1 else 0)) ∧
    (s.eph.digest = some (a, n, s.eph.openTick + 1) → s.ephOpen = true → s.ephMode = 1 → s.readErr a n = none → fits digest →
      ∃ t, exec .digestComplete s = .next t ∧ status t 3 1 = 0 ∧ t.eph.digest = none ∧ appended t digest) ∧
    (may 0x60058 → (s.ctlGet 0x60058).getLsbD 0 = false → v.getLsbD 0 = true → ∃ t, exec (.ephRecovWrite by_ v) s = .next t ∧
      t.ctlFld 0x60058 0 1 = 1 ∧ t.ctlFld 0x60058 21 15 = 0 ∧ t.eph.recovTicks = 0) ∧
    (s.ctlFld 0x60058 0 1 = 1 → s.eph.expiredDone = false → s.ctlFld 0x60058 1 20 ≤ s.eph.recovTicks →
      ∃ t, exec .budgetExpired s = .next t ∧ event t 3 ∧ t.eph.expired = true) ∧
    (s.eph.rollback = some (step, rb) → rb ≤ s.now → ∃ t, exec .rollbackAtTick s = .next t ∧ t.ephOpen = false ∧ event t 7 ∧
      t.eph.rolledBack = true ∧ (t.barGet 0x08).getLsbD 3 = true) ∧
    (s.eph.rollback = none → s.eph.abortAt = some t0 → t0 ≤ s.now → ∃ t, exec .rollbackAtTick s = .next t ∧ t.eph.abortAt = none ∧
      (s.variant = .m9220 → t = { s with eph := t.eph })) ∧
    (by_ = .core n ∨ by_ = .alidade → may (0x61000 + 16 * n) → n < s.variant.cores → ∃ t, exec (.linFind by_ n v) s = .next t ∧
      t.ctlGet (0x61000 + 16 * n) = v &&& 0xFFFFFFFF#36 ∧ n ∈ t.eph.searches) ∧
    (s.eph.searches.contains n = true → ∃ t, exec (.lineageSearchComplete n) s = .next t ∧ t.eph.searches = s.eph.searches.erase n ∧
      (s.linHits (s.ctlFld (0x61000 + 16 * n) 0 32) = [] → t.ctlGet (0x61000 + 16 * n + 8) = 0#36) ∧
      (s.linHits (s.ctlFld (0x61000 + 16 * n) 0 32) = i :: r → t.ctlGet (0x61000 + 16 * n + 8) = word (i + 2 ^ 12 + (if r = [] then 0 else 2 ^ 13))))

/-- Core resets, retirement and the fatal error (R220, R386, R395, R440–R444, R447, R454): a core that stopped takes a core reset and is started by the monitor once Alidade is ready; a second third fault within 65,536 ticks, a failed self-test or a command retires it; a fatal error signals, leaves the fabric, is logged, and ends in FATAL once the cores have stopped. Input power is fatal only at the lowest clock step (R29). Completes: CORE_RETIREMENT, CORE_RESET_SEQUENCE, FATAL_ERROR, POWER_FATAL. Power, resets and clock steps (R29, R434–R441, R443, R445, R446, R451): power-on and every reset end in READY with each core waiting for its monitor and local stores zero; power-on and power-off leave GDDR7 zero, a reset keeps it; the log survives; a retrained link keeps the device; a throttle step changes the clock, by one step for input power, is logged and reported. Completes: POWER_ON, POWER_OFF, ABRUPT_POWER_OFF, COLD_RESET, WARM_RESET, ALIDADE_WATCHDOG_EXPIRY, UCIE_CXL_LINK_RETRAINED, THROTTLE_STEP_DOWN, THROTTLE_STEP_UP. -/
def Obligations.ResetsFatalErrorsAndPower : Prop :=
  (∀ (s : State) (c reason code tick limit : Nat) (lost : List Nat) (x : Nat × Nat),
    let run := (s.core c).run
    let again := s.thirdFaultAgain c
    let retired (t : State) (why : Nat) : Prop := t.isRetired c = true ∧ t.core c = Core.reset ∧
      ∃ e, t.log.getLast? = some e ∧ e.kind = 5 ∧ e.unit = c ∧ e.detail = why
    let declared (t : State) (why : Nat) : Prop := t.ranas.fatal = some (why, code, s.now) ∧ t.fabState = 5 ∧
      ∃ e, t.log.getLast? = some e ∧ e.kind = 3 ∧ e.detail = (why + code * 2 ^ 8) % 2 ^ 64
    (c < s.variant.cores → s.isRetired c = false →
      (reason = 1 ∧ run = .frozen ∧ again = true ∨ reason = 2 ∧ run = .atReset ∨ reason = 3 →
        ∃ t, exec (.coreRetirement c reason) s = .next t ∧ retired t reason) ∧
      (run = .frozen → ∃ t, exec (.coreResetSequence c) s = .next t ∧ t.core c = Core.reset ∧ Tbl.get 0 t.thirdFault c = s.now + 1 ∧
        (again = true → retired t 1) ∧ (again = false → t.isRetired c = false)) ∧
      (run = .exhausted → ∃ t, exec (.coreResetSequence c) s = .next t ∧ t.core c = Core.reset ∧ t.isRetired c = false) ∧
      (run = .atReset → s.booted = true → ∃ t, exec (.coreResetSequence c) s = .next t ∧ t = s.setCore c (t.core c) ∧ (t.core c).run = .idle ∧
        (t.core c).csp.get 0 = selfPair (coreWindow c + 0xBC000) ∧ (t.core c).dsp.get 0 = selfPair (coreWindow c + 0xBE000))) ∧
    (1 ≤ reason → reason ≤ 4 → s.ranasState ≠ 3 → s.ranas.fatal = none → ∃ t, exec (.fatalError reason code lost) s = .next t ∧ declared t reason) ∧
    (1 ≤ reason → reason ≤ 4 → s.ranasState ≠ 3 → s.ranas.fatal = some (x.1, x.2, tick) → tick < s.now ∨ s.coresQuiet = true →
      ∃ t, exec (.fatalError reason code lost) s = .next t ∧ t.ranasState = 3 ∧ (t.barGet 0x08).getLsbD 0 = true ∧
        (c < s.variant.cores → (t.core c).run ≠ .running)) ∧
    (limit ≤ 3 → (limit = 1 → s.clockStep = 2) → s.ranasState ≠ 3 → s.ranas.fatal = none → ∃ t, exec (.powerFatal (limit, code)) s = .next t ∧ declared t 4)) ∧
  (∀ (s : State) (n unit cause step reason : Nat) (cxl again : Bool),
    let boots := s.bootPick.isSome = true
    let kept (b : Byte) (k : Nat) : Byte := if k < s.variant.gddrEnd then b else 0#8
    let up (t : State) : Prop := t.ranasState = 2 ∧ (t.barGet 0x08).getLsbD 1 = true ∧
      ∀ c, c < s.variant.cores → t.isRetired c = false → (t.core c).run = .idle
    let logged (t : State) : Prop := ∃ l, t.log = s.log ++ l
    let off (c : Instr) (p : State → Prop) : Prop := ∃ t, exec c s = .next t ∧ t.ranas.powered = false ∧ t.fabState = 0 ∧
      (∀ k, k < 2 ^ 44 → t.byteAt k = 0#8) ∧ (∀ c, t.core c = Core.reset) ∧ p t
    let resets (c : Instr) : Prop := ∃ t, exec c s = .next t ∧ up t ∧ (∀ k, k < 2 ^ 44 → t.byteAt k = kept (s.byteAt k) k) ∧ logged t
    (s.ranas.powered = false → boots → ∃ t, exec (.powerOn [] [] n) s = .next t ∧ t.ranas.powered = true ∧ up t ∧ (∀ k, k < 2 ^ 44 → t.byteAt k = 0#8)) ∧
    (s.ranas.powered = true → off .powerOff (fun _ => True) ∧
      off (.abruptPowerOff unit cause) (fun t => t.log = s.log ∧ t.ranas.abrupt = some (unit % 65536, cause % 256))) ∧
    (boots → (s.resetDue 2 = true → resets (.coldReset [] [])) ∧ (s.ranas.gddrBad = [] → s.resetDue 1 = true → resets (.warmReset [])) ∧
      (again = true ∨ s.ranas.gddrBad = [] → resets (.alidadeWatchdogExpiry again [] []))) ∧
    (∃ t e, exec (.ucieCxlLinkRetrained cxl n) s = .next t ∧ s.SameMem t ∧ t.cores = s.cores ∧ t.ctl = s.ctl ∧ t.log = s.log ++ [e] ∧ e.kind = 0x13 ∧
      e.unit = (if cxl then 0x200 else 0x100) + n % 256 ∧ ((t.barGet 0x10).extractLsb' 4 8).toNat = min (((s.barGet 0x10).extractLsb' 4 8).toNat + 1) 255) ∧
    (1 ≤ reason → reason ≤ 3 → step ≤ 2 → s.clockStep ≠ step →
      let c : Instr := if s.clockStep < step then .throttleStepDown step reason else .throttleStepUp step reason
      let lower := if s.clockStep < step ∧ reason = 1 then s.clockStep + 1 else step
      ∃ t e, exec c s = .next t ∧ t.clockStep = lower ∧ t.ranas.throttle = (if lower = 0 then 0 else reason) ∧ t.out.head? = some (.pldmEvent 11 t.mhz) ∧
        t.log = s.log ++ [e] ∧ e.kind = 0x0A ∧ t.cores = s.cores ∧ s.SameMem t))

/-- Mailboxes (R399, R401–R405, R407, R410): POST copies the command and makes the mailbox BUSY, or is lost on a BUSY one; a result is written with its SEQ and code and the mailbox is DONE; the first read of a result marks it read; an unknown opcode, a driver command from another mailbox and a wrong length are refused by code; a restart abandons what was BUSY. Completes: MBX_DOORBELL, MBX_RES_READ, COMMAND_COMPLETE, GET_IDENTITY, GET_STATUS, GET_LOG, HOST_CXL_MEM_ACCESS, HOST_HEARTBEAT, ALIDADE_RESTART. -/
def Obligations.MailboxesPostAndComplete : Prop :=
  ∀ (s : State) (n pa len rc : Nat) (p : Post) (d : CmdDone) (l : List Byte) (e : LogEntry),
    let st (t : State) : Reg32 := t.barGet (0x10000 + n * 0x100 + 4)
    let mode (t : State) : Nat := ((st t).extractLsb' 0 2).toNat
    let result (t : State) : Reg32 := t.barGet (0x10000 + n * 0x100 + 0xC0)
    let answered (t : State) (seq code size : Nat) : Prop := mode t = 2 ∧ (st t).getLsbD 2 = false ∧ result t = BitVec.ofNat 32 (seq + code * 2 ^ 16) ∧
      t.barGet (0x10000 + n * 0x100 + 0xC4) = BitVec.ofNat 32 (min size 56)
    let first := leAt p.par 0 4
    n < 64 →
    (mode s ≠ 1 → ∃ t q, exec (.mbxDoorbell n) s = .next t ∧ mode t = 1 ∧ t.ranas.posts = s.ranas.posts ++ [q] ∧ q.mbox = n ∧
      q.op = (s.barGet (0x10000 + n * 0x100 + 0x40)).toNat % 65536 ∧ q.plen = (s.barGet (0x10000 + n * 0x100 + 0x40)).toNat / 65536 ∧
      q.seq = (s.barGet (0x10000 + n * 0x100 + 8)).toNat % 65536 ∧ q.par = s.mbxParams n) ∧
    (mode s = 1 → ∃ t, exec (.mbxDoorbell n) s = .next t ∧ (st t).getLsbD 3 = true ∧ t.ranas = s.ranas) ∧
    (s.ranas.done.find? (fun d => d.mbox == n) = some d → ∃ t, exec (.commandComplete n) s = .next t ∧ answered t d.seq d.rc d.pay.length ∧
      t.ranas.done = s.ranas.done.filter (fun d => d.mbox != n)) ∧
    ((∀ d, d ∈ s.ranas.done → d.mbox ≠ n) → s.ranasState = 2 → s.ranas.posts.head? = some p → p.mbox = n →
      ((∀ c, c ∈ cmdRows → c.op ≠ p.op) ∧ rc = 3 ∨ (∃ c, c ∈ cmdRows ∧ c.op = p.op ∧ c.drv = true ∧ 8 ≤ n) ∧ rc = 6 ∨
        (∃ c, c ∈ cmdRows ∧ c.op = p.op ∧ ¬ (c.drv = true ∧ 8 ≤ n) ∧ p.plen ≠ c.len) ∧ rc = 4) →
      ∃ t, exec (.commandComplete n) s = .next t ∧ answered t p.seq rc 0 ∧ t.ranas.posts = s.ranas.posts.tail) ∧
    (∃ t, exec (.mbxResRead n) s = .next t ∧ t.ranas = s.ranas ∧
      (if mode s = 2 then (st t).getLsbD 2 = true ∧ t.out.head? = some (.readVal ((setBitAt (result s) 24 ((st s).getLsbD 2)).setWidth 36))
       else t.out.head? = some (.readVal ((result s).setWidth 36)))) ∧
    (∃ t, exec .alidadeRestart s = .next t ∧ t.ranas.posts = [] ∧ t.ranas.done = [] ∧ (mode s = 1 → answered t ((result s).toNat % 65536) 14 0) ∧
      ∃ e, t.log = s.log ++ [e] ∧ e.kind = 0x10) ∧
    (∃ t, exec .hostHeartbeat s = .next t ∧ t.barGet 0x14 = s.barGet 0x14 + 1#32 ∧ t = { s with bar0 := t.bar0 }) ∧
    (s.Posted p n 0x0001 → first = 0 → s.Carries (.getIdentity n) p 0 (fun _ pay => pay.length = 43 ∧ leAt pay 0 2 = s.impl ∧
      leAt pay 4 4 = s.runBank.version % 2 ^ 32 ∧ leAt pay 36 4 = (s.barGet 0).toNat ∧ leAt pay 40 2 = s.fabId)) ∧
    (s.Posted p n 0x0002 → s.Carries (.getStatus n) p 0 (fun _ pay => pay.length = 38 ∧ leAt pay 0 4 = (s.barGet 4).toNat ∧ leAt pay 4 2 = s.mhz ∧
      leAt pay 16 1 = s.fabState ∧ leAt pay 24 8 = s.now % 2 ^ 64)) ∧
    (s.Posted p n 0x0003 → s.log[first]? = some e → s.Carries (.getLog n) p 0 (fun _ pay => pay.length = 56 ∧ (pay.drop 8).take 16 = e.bytes ∧
      leAt pay 4 4 = s.log.length % 2 ^ 32)) ∧
    (len ≠ 0 → pa / 64 = (pa + len - 1) / 64 → pa + len ≤ s.variant.gddrEnd → s.ranas.gddrBad = [] →
      (s.readErr pa len = none → ∃ t, exec (.hostCxlMemAccess pa len none) s = .next t ∧ t.out = .hostData (s.bytesAt pa len) false :: s.out ∧ s.SameMem t) ∧
      (s.writeErr pa len = none → l.length = len → ∃ t, exec (.hostCxlMemAccess pa 0 (some l)) s = .next t ∧
        ∀ k, t.byteAt k = writesAt [(pa, l)] (s.byteAt k) k))

/-- Commands for cores and schedules (R47–R50, R363, R407–R409, R444, R453): a runtime context starts at its entry with its argument in w1; a core is reset or retired; a schedule is copied from memory, starts and stops at its ticks, and a start too near is TOO_LATE; a core's deferred queue is set. Completes: RUNTIME_START, CORE_RESET, SCHED_INSTALL, SCHED_START, SCHED_STOP, DQ_SET. -/
def Obligations.CoreAndScheduleCommandsAct : Prop :=
  ∀ (s : State) (n : Nat) (p : Post),
    let f (off k : Nat) : Nat := leAt p.par off k
    let c := f 0 2
    let i := f 0 1
    let len := f 4 4
    let tb := f 8 8
    let size := s.variant.cores * len * 32
    let entry (c j : Nat) : Pair × Word × Word := s.taskAt tb len c j
    (s.Posted p n 0x0010 → f 16 2 = f 18 2 → f 18 2 < s.variant.cores → f 24 8 = 0 → f 8 8 < 2 ^ 36 → f 0 8 < 2 ^ 44 → s.startable (f 16 2) = true →
      (s.core (f 16 2)).tickTop = false → ((s.core (f 16 2)).getMreg 0x1F).getLsbD 8 = false →
      s.Carries (.runtimeStart n) p 0 (fun t pay => pay = bytesOf 1 2 ∧ (t.core (f 16 2)).pc = selfPair (f 0 8) ∧ (t.core (f 16 2)).pl = 1 ∧
        (t.core (f 16 2)).getW 1#5 = word (f 8 8) ∧ (t.core (f 16 2)).run = .running ∧ (t.mon (f 16 2)).started = true ∧ (t.mon (f 16 2)).task = .runtime)) ∧
    (s.Posted p n 0x0011 → c < s.variant.cores → s.isRetired c = false → f 2 1 ≤ 1 →
      s.Carries (.coreReset n) p 0 (fun t _ => t.core c = Core.reset ∧ t.isRetired c = decide (f 2 1 = 1))) ∧
    (s.Posted p n 0x0020 → i ≤ 1 → 1 ≤ len → len ≤ 4096 → (∀ q, q < 10 → f (24 + 2 * q) 2 = 0) → (∀ a, s.schedNow = some a → a.1 ≠ i) →
      tb + size ≤ s.variant.gddrEnd → s.readErr tb size = none →
      (∀ c j, c < s.variant.cores → j < len → (entry c j).2.2.getLsbD 0 = true → (entry c j).2.2.extractLsb' 3 33 = 0#33) →
      s.Carries (.schedInstall n) p 0 (fun t _ => t.schedLen i = len ∧
        ∀ c j, c < s.variant.cores → j < len → Tbl.get (0#72, 0#36, 0#36) (t.schedOf i).tasks (c * 4096 + j) = entry c j)) ∧
    (s.Posted p n 0x0021 → i ≤ 1 → s.schedLen i ≠ 0 →
      (s.now + 2 ≤ tb → s.Carries (.schedStart n) p 0 (fun t pay => (i, tb) ∈ t.sched.pendStart ∧ pay = bytesOf tb 8)) ∧
      (tb < s.now + 2 → s.Carries (.schedStart n) p 9 (fun t _ => t.sched = s.sched))) ∧
    (s.Posted p n 0x0022 →
      (f 0 8 = 0 → s.Carries (.schedStop n) p 0 (fun t _ => s.now + 1 ∈ t.sched.pendStop)) ∧
      (p.tick < f 0 8 → s.Carries (.schedStop n) p 0 (fun t _ => f 0 8 ∈ t.sched.pendStop ∧ ∀ q, q ∈ t.sched.pendStart ↔ q ∈ s.sched.pendStart ∧ q.2 < f 0 8)) ∧
      (f 0 8 ≠ 0 → f 0 8 ≤ p.tick → s.Carries (.schedStop n) p 9 (fun t _ => t.sched = s.sched))) ∧
    (s.Posted p n 0x0023 → c < s.variant.cores → tb = 0 ∨ tb % 64 = 0 ∧ (s.region tb = .gddr ∨ ∃ x, s.region tb = .ls c x) →
      s.Carries (.dqSet n) p 0 (fun t _ => Tbl.get 0 t.sched.dqNext c = tb + 1))

/-- Commands for the tick and the fabric (R289, R290, R309, R321, R407, R431, R432): TICK_SET stages what writes of TICK_CTRL and TICK_PERIOD stage; FAB_CONFIG sets shape, coordinates and the id that follows from them; FAB_CONTROL enables, authorises, drains, rejoins, disables, and disables, enables or retrains a port; FAB_MEMBERS reads the membership. Completes: TICK_SET, FAB_CONFIG, FAB_CONTROL_ENABLE, FAB_CONTROL_AUTH, FAB_CONTROL_DRAIN, FAB_CONTROL_REJOIN, FAB_CONTROL_DISABLE, FAB_CONTROL_PORT_DISABLE, FAB_CONTROL_PORT_ENABLE, FAB_CONTROL_PORT_RETRAIN, FAB_MEMBERS. -/
def Obligations.TickAndFabricCommandsAct : Prop :=
  ∀ (s : State) (n i k : Nat) (p : Post),
    let f (off k : Nat) : Nat := leAt p.par off k
    let ctrl := word (f 0 1 + f 1 1 * 4 + f 2 1 * 2 ^ 10 + f 3 1 * 2 ^ 35)
    let q := f 1 1
    let op (x : Nat) : Prop := s.Posted p n 0x0031 ∧ f 0 1 = x
    let enabled := (s.ctlGet 0x200000).getLsbD 0
    let state (t : State) (pay : List Byte) (x : Nat) : Prop := t.fabState = x ∧ pay = bytesOf x 1
    (s.Posted p n 0x0024 → f 0 1 ≤ 2 → f 3 1 ≤ 1 → s.regTakes 0x00 ctrl = true → f 4 4 < 2 ^ 26 → s.regTakes 0x10 (word (f 4 4)) = true → f 16 8 = 0 →
      f 24 2 / 256 % 128 = 0 → f 0 1 = s.ctlFld 0x00 0 2 ∨ s.schedNow = none →
      s.Carries (.tickSet n) p 0 (fun t _ => t.tickStage = ((s.tickWrite 0x00 ctrl).tickWrite 0x10 (word (f 4 4))).tickStage ∧ t.ctlGet 0x28 = s.ctlGet 0x28)) ∧
    (s.Posted p n 0x0030 → s.ctlFld 0x200000 35 1 = 0 → f 0 2 ≠ 0 → f 0 2 < 2 ^ 10 → shapeOk s.variant (f 0 2) = true → f 4 4 < 2 ^ 20 →
      coordOk (f 0 2) (f 4 4) = true → f 8 8 < 2 ^ 36 → s.regTakes 0x200028 (word (f 8 8)) = true → f 16 8 < 2 ^ 36 →
      s.regTakes 0x200030 (word (f 16 8)) = true → f 24 1 ≤ 1 →
      s.Carries (.fabConfig n) p 0 (fun t pay => t.shape = f 0 2 ∧ t.coord = f 4 4 ∧ t.ctlGet 0x200010 = word (idOf (f 0 2) (f 4 4) + 2 ^ 14) ∧
        t.ctlGet 0x200028 = word (f 8 8) ∧ t.ctlGet 0x200030 = word (f 16 8) ∧ t.ctlFld 0x200000 35 1 = f 24 1 ∧ pay = bytesOf t.fabId 2)) ∧
    (op 1 → s.fabState = 0 → s.ctlFld 0x200010 14 1 = 1 → s.Carries (.fabControlEnable n) p 0 (fun t pay => state t pay 1)) ∧
    (op 2 → enabled = true → s.fabState ≠ 0 → s.Carries (.fabControlAuth n) p 0 (fun t pay => state t pay s.fabState ∧ (t.ctlGet 0x200000).getLsbD 1 = true)) ∧
    (op 3 → enabled = true → s.fabState = 3 → (∀ r, r ∈ s.remote → r.pseq.isSome = true) →
      s.Carries (.fabControlDrain n) p 0 (fun t pay => state t pay 4)) ∧
    (op 4 → enabled = true → s.fabState = 5 → s.Carries (.fabControlRejoin n) p 0 (fun t pay => state t pay 1)) ∧
    (op 5 → s.fabState ≠ 0 → s.Carries (.fabControlDisable n) p 0 (fun t pay => state t pay 0)) ∧
    (q < s.variant.ports →
      (op 6 → s.portUsed q = true → s.Carries (.fabControlPortDisable n) p 0 (fun t _ => t.portState q = 0 ∧ t.ctlFld (portOff q 8) 3 3 = 5 ∧
        t.ctlFld (portOff q 0) 0 1 = 1)) ∧
      (op 7 → s.Carries (.fabControlPortEnable n) p 0 (fun t pay => t.ctlFld (portOff q 0) 0 1 = 0 ∧ state t pay s.fabState)) ∧
      (op 8 → s.portUp q = true → s.ctlFld (portOff q 0) 0 1 = 0 → s.Carries (.fabControlPortRetrain n) p 0 (fun t _ => t.portState q = 3))) ∧
    (s.Posted p n 0x0032 → f 0 2 ≤ 42 → k < 48 → i < 8 →
      s.Carries (.fabMembers n) p 0 (fun _ pay => pay.length = 56 ∧ leAt pay 0 2 = 384 * f 0 2 ∧
        (pay.getD (8 + k) 0#8).getLsbD i = Tbl.get false s.fab.members (384 * f 0 2 + 8 * k + i)))

/-- Commands for memory, recovery, firmware and debug (R242, R243, R248, R250, R385, R396, R407, R411–R413, R416, R421, R440): each changes the item it names and answers OK; an image goes to the bank that does not run only when it is valid; a nonce is made, and a token that passes its checks is in force. Completes: CXL_MAP, MEM_POOLS, REMOTE_TIMEOUT, SEM_ADD, SEM_TO_HOST, ROLLBACK, DUMP_SET, MODULE_RESET, FW_WRITE, FW_ACTIVATE, DEBUG_NONCE, DEBUG_TOKEN. -/
def Obligations.MemoryFirmwareAndDebugCommandsAct : Prop :=
  ∀ (s : State) (n : Nat) (p : Post),
    let f (off k : Nat) : Nat := leAt p.par off k
    let g := 2 ^ 30
    let image := s.bytesAt (f 0 8) (f 8 4)
    let why := s.imageCheck image
    let token := s.bytesAt (f 0 8) 256
    (s.Posted p n 0x0040 → s.variant = .m9440 → f 0 1 ≤ 1 → f 1 1 ≤ 7 →
      (f 2 1 = 0 → s.Carries (.cxlMap n) p 0 (fun t _ => Tbl.get {} t.cxlRanges (f 0 1 * 8 + f 1 1) = {})) ∧
      (f 2 1 = 1 ∨ f 2 1 = 3 → f 8 8 % g = 0 → f 16 8 % g = 0 → f 16 8 ≠ 0 → 2 ^ 42 ≤ f 8 8 → f 8 8 + f 16 8 ≤ 2 ^ 44 → f 16 8 ≤ 12 * 1024 * g →
        s.cxlRanges = [] → s.Carries (.cxlMap n) p 0 (fun t _ => Tbl.get {} t.cxlRanges (f 0 1 * 8 + f 1 1) =
          { enabled := true, interleave := f 2 1 == 3, base := f 8 8, size := f 16 8, dpa := f 24 8 }))) ∧
    (s.Posted p n 0x0041 →
      (f 0 2 ≤ s.variant.hubSlots → s.Carries (.memPools n) p 0 (fun t _ => t.cxlSlots = f 0 2)) ∧
      (s.variant.hubSlots < f 0 2 → s.Carries (.memPools n) p 5 (fun t _ => t.cxlSlots = s.cxlSlots))) ∧
    (s.Posted p n 0x0042 → 10 ≤ f 0 4 → f 0 4 ≤ 10000 → s.Carries (.remoteTimeout n) p 0 (fun t _ => t.remoteTimeout = f 0 4)) ∧
    (s.Posted p n 0x0043 → f 0 2 < s.variant.semas → s.Carries (.semAdd n) p 0 (fun t pay =>
      t.ctlGet (semOff (f 0 2)) = s.ctlGet (semOff (f 0 2)) + (BitVec.ofNat 32 (f 4 4)).signExtend 36 ∧ pay = wordBytes (s.ctlGet (semOff (f 0 2))))) ∧
    (s.Posted p n 0x0044 → f 0 2 < s.variant.semas → f 2 2 < 2048 →
      (f 4 1 = 0 → s.Carries (.semToHost n) p 0 (fun t _ => Tbl.get 0 t.semHost (f 0 2) = 0)) ∧
      (f 4 1 = 1 → s.semHost.length < 256 ∨ Tbl.get 0 s.semHost (f 0 2) ≠ 0 →
        s.Carries (.semToHost n) p 0 (fun t _ => Tbl.get 0 t.semHost (f 0 2) = 2 * f 2 2 + 2)) ∧
      (f 4 1 = 1 → 256 ≤ s.semHost.length → Tbl.get 0 s.semHost (f 0 2) = 0 → s.Carries (.semToHost n) p 0x0C (fun t _ => t.semHost = s.semHost))) ∧
    (s.Posted p n 0x0050 → s.now + 4 ≤ f 8 8 → s.ephOpen = true → s.ctlFld 0x60008 5 16 = f 0 2 →
      s.Carries (.rollback n) p 0 (fun t _ => t.eph.rollback = some (f 0 2, f 8 8))) ∧
    (s.Posted p n 0x0051 → f 8 8 = 0 ∨ 4096 ≤ f 8 8 → s.Carries (.dumpSet n) p 0 (fun t _ => t.ranas.dump = (f 0 8, f 8 8))) ∧
    (s.Posted p n 0x0052 → f 0 1 = 1 ∨ f 0 1 = 2 → s.Carries (.moduleReset n) p 0 (fun t _ => t.ranas.reset = (f 0 1, n))) ∧
    (s.Posted p n 0x0060 → (s.barGet 4).getLsbD 5 = false → s.ranas.updating = false → f 8 4 ≤ 2 ^ 26 → f 0 8 + f 8 4 ≤ s.variant.gddrEnd →
      s.readErr (f 0 8) (f 8 4) = none →
      s.Carries (.fwWrite (n, false)) p (if why = 0 then 0 else 0x0B) (fun t pay =>
        pay = BitVec.ofNat 8 why :: bytesOf (leAt image 0x10 4) 4 ∧
        (why = 0 → t.otherBank.valid = true ∧ t.otherBank.version = leAt image 0x10 4 ∧ t.otherBank.svn = leAt image 0x14 4) ∧
        (why ≠ 0 → t.otherBank = s.otherBank) ∧ t.runBank = s.runBank) ∧
      s.Carries (.fwWrite (n, true)) p 0x0B (fun t pay => pay.head? = some (BitVec.ofNat 8 (if why = 0 then 7 else why)) ∧
        t.otherBank = s.otherBank ∧ t.runBank = s.runBank)) ∧
    (s.Posted p n 0x0061 → f 0 1 ≤ 1 →
      (f 1 1 = 0 → s.Carries (.fwActivate n) p 0 (fun t _ => t.ranas.trial = some (f 0 1))) ∧
      (f 1 1 = 1 → f 0 1 ≠ s.otherNo → s.Carries (.fwActivate n) p 0 (fun t _ => t.ranas.committed = f 0 1 ∧
        t.ranas.fuseSvn = max s.ranas.fuseSvn s.runBank.svn ∧ (t.barGet 4).getLsbD 5 = false))) ∧
    (s.Posted p n 0x0062 → s.Carries (.debugNonce n) p 0 (fun t pay => t.ranas.nonce = some pay ∧ pay.length = 32)) ∧
    (s.Posted p n 0x0063 →
      (f 8 1 = 1 → s.Carries (.debugToken n) p 0 (fun t _ => t.ranas.token = none)) ∧
      (f 8 1 = 0 → f 0 8 + 256 ≤ s.variant.gddrEnd → s.readErr (f 0 8) 256 = none →
        (s.tokenCheck token = 0 → s.Carries (.debugToken n) p 0 (fun t _ => t.ranas.token = some (leAt token 4 4) ∧ t.ranas.nonce = none)) ∧
        (s.tokenCheck token ≠ 0 → s.Carries (.debugToken n) p 0x0B (fun t pay => pay = [BitVec.ofNat 8 (s.tokenCheck token)] ∧
          t.ranas.token = s.ranas.token ∧ t.ranas.nonce = none))))

/-- Attestation and I3C management (R413, R415, R417, R418): each SPDM request is answered once its connection has reached its stage and with an error before; the identity chain is that of slot 0; an MCTP EID is assigned and read; sensors 11 and 20 are the clock and the state; a firmware update stores a valid image in the bank that does not run and ACTIVATE marks that bank for trial. Completes: GET_VERSION, GET_CAPABILITIES, NEGOTIATE_ALGORITHMS, GET_DIGESTS, GET_CERTIFICATE, CHALLENGE, GET_MEASUREMENTS, PLDM_FIRMWARE_UPDATE, ACTIVATE_FIRMWARE, PLDM_SENSOR_READ, MCTP_CONTROL_MESSAGE, PLDM_BASE_DISCOVERY. -/
def Obligations.ManagementRequestsAreAnswered : Prop :=
  ∀ (s : State) (t v slot off len index e n : Nat) (signed a b : Bool) (l : List Byte),
    let stage := s.spdmStage t
    let answer (u : State) (code : Nat) (body : List Byte) : Prop := u.out.head? = some (.answer 0 code body)
    let done (c : Instr) (next : Nat) (body : List Byte) : Prop :=
      ∃ u, exec c s = .next u ∧ u.spdmStage t = next ∧ ∃ sig, u.out = .answer t 0 (body ++ sig) :: s.out
    let exact (c : Instr) (next : Nat) (body : List Byte) : Prop :=
      ∃ u, exec c s = .next u ∧ u.spdmStage t = next ∧ u.out = .answer t 0 body :: s.out
    let error (c : Instr) : Prop := ∃ u, exec c s = .next u ∧ u.spdmStage t = stage ∧ u.out = .answer t 1 [] :: s.out
    let chain := sha3x512 Config.certChain
    let why := s.imageCheck l
    (t ≤ 1 →
      exact (.getVersion t) 1 [0x12#8, 0x13#8] ∧
      (1 ≤ stage → v = 0x12 ∨ v = 0x13 → exact (.getCapabilities t v) 2 [BitVec.ofNat 8 v]) ∧
      (2 ≤ stage → exact (.negotiateAlgorithms t true true) 3 []) ∧
      (3 ≤ stage → exact (.getDigests t) 3 (1#8 :: chain) ∧ exact (.getCertificate t 0 off len) 3 ((Config.certChain.drop off).take len) ∧
        done (.challenge t 0) 3 chain ∧ done (.getMeasurements t 0 signed) 3 [6#8] ∧ exact (.getMeasurements t 6 false) 3 (bytesOf (s.ranas.token.getD 0) 4) ∧
        exact (.getMeasurements t 4 false) 3 (packBytes [(s.runBank.version, 4), (s.runBank.svn, 4), (s.ranas.fuseSvn, 4),
          (((s.barGet 4).extractLsb' 4 1).toNat, 1), (((s.barGet 4).extractLsb' 5 1).toNat, 1)])) ∧
      (stage = 0 → error (.getCapabilities t v)) ∧ (stage < 2 ∨ (a && b) = false → error (.negotiateAlgorithms t a b)) ∧
      (stage < 3 → error (.getDigests t)) ∧ (stage < 3 ∨ slot ≠ 0 → error (.getCertificate t slot off len) ∧ error (.challenge t slot)) ∧
      (stage < 3 → error (.getMeasurements t index signed))) ∧
    (1 ≤ e → e < 255 → ∃ u, exec (.mctpControlMessage (some e)) s = .next u ∧ u.ranas.eid = e ∧ answer u 0 (bytesOf e 1)) ∧
    (∃ u, exec (.mctpControlMessage none) s = .next u ∧ u = { s with out := u.out } ∧ answer u 0 (bytesOf s.ranas.eid 1)) ∧
    exec .pldmBaseDiscovery s = .next (s.emit (.answer 0 0 [0#8, 2#8, 5#8])) ∧
    exec (.pldmSensorRead 11) s = .next (s.emit (.answer 0 0 (bytesOf s.mhz 4))) ∧
    exec (.pldmSensorRead 20) s = .next (s.emit (.answer 0 0 (bytesOf s.ranasState 4))) ∧
    (1 ≤ n → n ≤ 10 → ¬ (s.variant = .m9220 ∧ (n = 6 ∨ n = 7)) → ∃ u v, exec (.pldmSensorRead n) s = .next u ∧ answer u 0 (bytesOf v 4)) ∧
    ((∀ d, d ∈ s.ranas.done → d.op ≠ 0x0060) → (s.barGet 4).getLsbD 5 = false →
      (∃ u, exec (.pldmFirmwareUpdate none) s = .next u ∧ u.ranas.updating = true ∧ answer u 0 []) ∧
      (s.ranas.updating = true → ∃ u, exec (.pldmFirmwareUpdate (some (l, a))) s = .next u ∧ u.ranas.updating = false ∧ u.runBank = s.runBank ∧
        (if why = 0 ∧ a = false then answer u 0 [] ∧ u.otherBank.valid = true ∧ u.otherBank.version = leAt l 0x10 4
         else answer u 3 [BitVec.ofNat 8 (if why = 0 then 7 else why)] ∧ u.otherBank = s.otherBank))) ∧
    ((s.barGet 4).getLsbD 5 = true → (∀ d, d ∈ s.ranas.done → d.op ≠ 0x0060) → exec (.pldmFirmwareUpdate (some (l, a))) s = .next (s.emit (.answer 0 2 []))) ∧
    (∃ u, exec .activateFirmware s = .next u ∧ u.ranas.trial = some s.otherNo ∧ answer u 0 [])

/-- The eyepiece port (R419–R421): a token in force gives each access its permission, and without it the status is 1; a core is halted, read, stepped and resumed; GDDR7 is read and written by physical address; the nonce that a token consumes is made anew. Completes: GET_ID, GET_NONCE, PUT_TOKEN, READ_STATE, HALT, RESUME, STEP, READ_MEM, WRITE_MEM, ALIDADE_TRACE, READ_PLATE, READ_SET. -/
def Obligations.EyepieceNeedsItsToken : Prop :=
  ∀ (s : State) (c n p r sel j pa len : Nat) (l : List Byte),
    let answer (t : State) (code : Nat) (body : List Byte) : Prop := t.out.head? = some (.answer 2 code body)
    let may (b : Nat) : Prop := ∃ perms, s.ranas.token = some perms ∧ (BitVec.ofNat 32 perms).getLsbD b = true
    let here := c < s.variant.cores ∧ s.isRetired c = false
    let halted := here ∧ (s.core c).eyeHalt = true ∧ (s.core c).eyeStep = false
    let refused (i : Instr) : Prop := exec i s = .next (s.emit (.answer 2 1 []))
    (∃ t b, exec .getId s = .next t ∧ answer t 0 b ∧ b.length = 18) ∧
    (∃ t b, exec .getNonce s = .next t ∧ t.ranas.nonce = some b ∧ b.length = 32 ∧ answer t 0 b) ∧
    (l.length = 256 →
      (s.tokenCheck l = 0 → ∃ t, exec (.putToken l) s = .next t ∧ t.ranas.token = some (leAt l 4 4) ∧ t.ranas.nonce = none ∧ answer t 0 (bytesOf (leAt l 4 4) 4)) ∧
      (s.tokenCheck l ≠ 0 → ∃ t, exec (.putToken l) s = .next t ∧ t.ranas.token = s.ranas.token ∧ t.ranas.nonce = none ∧ answer t 3 [])) ∧
    (¬ may 0 → refused (.readState c n) ∧ refused (.readPlate c p r) ∧ refused (.readSet c sel j)) ∧
    (¬ may 1 → refused (.halt c) ∧ refused (.resume c) ∧ refused (.step c)) ∧
    (¬ may 2 → refused (.readMem pa len)) ∧ (¬ may 3 → refused (.writeMem pa l)) ∧ (¬ may 4 → refused (.alidadeTrace n)) ∧
    (may 1 → here → ∃ t, exec (.halt c) s = .next t ∧ (t.core c).eyeHalt = true ∧ t.live c = false ∧ answer t 0 []) ∧
    (may 1 → halted → (∃ t, exec (.resume c) s = .next t ∧ t.core c = { s.core c with eyeHalt := false, eyeStep := false } ∧ answer t 0 []) ∧
      (∃ t, exec (.step c) s = .next t ∧ t.core c = { s.core c with eyeStep := true } ∧ answer t 0 [])) ∧
    (may 0 → halted →
      (n < 32 → exec (.readState c (0x100 + n)) s = .next (s.emit (.answer 2 0 (wordBytes ((s.core c).getW (BitVec.ofNat 5 n)))))) ∧
      exec (.readState c 0x142) s = .next (s.emit (.answer 2 0 (wordBytes (s.core c).psw))) ∧
      (p < nplates → r < 64 → exec (.readPlate c p r) s = .next (s.emit (.answer 2 0 ((((s.core c).plate p).row r).flatMap wordBytes)))) ∧
      (1 ≤ sel → sel ≤ 8 → ((s.core c).aset sel).valid = true → j < ((s.core c).aset sel).n →
        ∃ t b, exec (.readSet c sel j) s = .next t ∧ answer t 0 b)) ∧
    (may 2 → pa % 8 = 0 → pa + 8 ≤ s.variant.gddrEnd → s.readErr pa 8 = none →
      ∃ t, exec (.readMem pa 8) s = .next t ∧ answer t 0 (s.bytesAt pa 8) ∧ s.SameMem t) ∧
    (may 3 → pa % 8 = 0 → pa + 8 ≤ s.variant.gddrEnd → s.writeErr pa 8 = none → l.length = 8 →
      ∃ t, exec (.writeMem pa l) s = .next t ∧ answer t 0 [] ∧ ∀ k, t.byteAt k = writesAt [(pa, l)] (s.byteAt k) k) ∧
    (may 4 → ∃ t b, exec (.alidadeTrace n) s = .next t ∧ answer t 0 b ∧ b.length = min n 4096)

/-! ## The module as a whole -/

/-- A step is the command at the front of the queue, acting on the state with the queue's rest. That the module idles on an empty queue is the model's choice (log 1). -/
def Obligations.StepRunsTheCommandInFront : Prop :=
  ∀ (s : State) (c : Instr) (rest : List Instr),
    step { s with pending := c :: rest } = exec c { s with pending := rest } ∧ (s.pending = [] → step s = .next s)

/-- Reset (R401, R434, R436, R440, R441): no command waits, memory is canonical and reads as zero, every core waits at M with its registers at reset, the tick counter is 0 in free-running mode at its reset period, the fabric is ABSENT and Alidade is booting. -/
def Obligations.ResetLeavesTheModuleBooting : Prop :=
  State.reset.pending = [] ∧ Memory.wf State.reset.mem = true ∧ (∀ k, State.reset.byteAt k = 0#8) ∧
  (∀ c, (State.reset.core c).run = .atReset ∧ (State.reset.core c).pl = 0 ∧ State.reset.core c = Core.reset) ∧
  (∀ o, State.reset.ctlGet o = ctlReset .m9440 o) ∧ State.reset.ctlGet 0x10 = 1000000#36 ∧ State.reset.ctlFld 0x08 0 2 = 1 ∧ State.reset.tickCount = 0#72 ∧
  State.reset.fabState = 0 ∧ State.reset.ranasState = 0 ∧ State.reset.mhz = 940 ∧ State.reset.remote = [] ∧ State.reset.ce.buckets = [] ∧ State.reset.out = []

/-- Every command completes: from every state a step answers a next state, and never a fault or a refusal. -/
def Obligations.EveryStepAnswersANextState : Prop :=
   ∀ s : State, ∃ t, step s = .next t

/-- A step takes exactly the front command off the queue, and the module keeps its variant (R5): no command posts, drops or reorders what waits. -/
def Obligations.StepsKeepTheQueueAndTheVariant : Prop :=
  ∀ s t : State, step s = .next t → t.pending = s.pending.tail ∧ t.variant = s.variant

/-- Memory keeps its canonical form under every command: keys strictly rising, no entry equal to what an unlisted key reads as, so equal memories are equal data. -/
def Obligations.StepsKeepMemoryCanonical : Prop :=
  ∀ s t : State, Memory.wf s.mem = true → step s = .next t → Memory.wf t.mem = true
end

