-- ==== Sys2Proof/Laws/Tbl.lean ====
section
/-!
SUPPORT. Tables: a read after a write, and that every operation keeps the canonical form.
-/
namespace Sys2Proof.Machine

variable {α : Type}

@[simp] theorem Tbl.get_nil (d : α) (k : Nat) : Tbl.get d [] k = d := rfl

theorem Tbl.get_cons (d : α) (j k : Nat) (v : α) (r : Tbl α) :
    Tbl.get d ((j, v) :: r) k = if j = k then v else Tbl.get d r k := rfl

theorem Tbl.get_insert (d : α) (t : Tbl α) (k j : Nat) (v : α) :
    Tbl.get d (Tbl.insert t k v) j = if k = j then v else Tbl.get d t j := by
  induction t with
  | nil => rfl
  | cons e r ih =>
    obtain ⟨i, u⟩ := e
    unfold Tbl.insert
    split
    · rfl
    · split
      · subst i; simp only [Tbl.get_cons]; split <;> rfl
      · simp only [Tbl.get_cons, ih]
        split <;> split <;> first | rfl | omega

theorem Tbl.get_erase (d : α) (t : Tbl α) (k j : Nat) :
    Tbl.get d (Tbl.erase t k) j = if k = j then d else Tbl.get d t j := by
  induction t with
  | nil => simp [Tbl.erase]
  | cons e r ih =>
    obtain ⟨i, u⟩ := e
    unfold Tbl.erase
    split
    · subst i; rw [ih, Tbl.get_cons]; split <;> rfl
    · simp only [Tbl.get_cons, ih]
      split <;> split <;> first | rfl | omega

/-- A read after a write, at any key. -/
theorem Tbl.get_set [DecidableEq α] (d : α) (t : Tbl α) (k j : Nat) (v : α) :
    Tbl.get d (Tbl.set d t k v) j = if k = j then v else Tbl.get d t j := by
  unfold Tbl.set
  split
  · subst v; exact Tbl.get_erase d t k j
  · exact Tbl.get_insert d t k j v

@[simp] theorem Tbl.get_set_same [DecidableEq α] (d : α) (t : Tbl α) (k : Nat) (v : α) :
    Tbl.get d (Tbl.set d t k v) k = v := by simp [Tbl.get_set]

theorem Tbl.get_set_ne [DecidableEq α] (d : α) (t : Tbl α) {k j : Nat} (v : α) (h : k ≠ j) :
    Tbl.get d (Tbl.set d t k v) j = Tbl.get d t j := by simp [Tbl.get_set, h]

/-- A write leaves every other key, whatever an unlisted key reads as. -/
theorem Tbl.get_set_other [DecidableEq α] (d e : α) (t : Tbl α) {k j : Nat} (v : α) (h : k ≠ j) :
    Tbl.get e (Tbl.set d t k v) j = Tbl.get e t j := by
  unfold Tbl.set
  split
  · simp [Tbl.get_erase, h]
  · simp [Tbl.get_insert, h]

/-- A run of writes, at any key. -/
theorem Tbl.get_setMany [DecidableEq α] (d : α) (t : Tbl α) (b : Nat) (l : List α) (j : Nat) :
    Tbl.get d (Tbl.setMany d t b l) j = if b ≤ j ∧ j < b + l.length then l.getD (j - b) d else Tbl.get d t j := by
  induction l generalizing t b with
  | nil => simp [Tbl.setMany] <;> omega
  | cons v r ih =>
    simp only [Tbl.setMany, ih, Tbl.get_set, List.length_cons]
    rcases Nat.lt_trichotomy b j with h | h | h
    · obtain ⟨n, rfl⟩ : ∃ n, j = b + 1 + n := ⟨j - b - 1, by omega⟩
      have e : b + 1 + n - b = n + 1 := by omega
      have e2 : b + 1 + n - (b + 1) = n := by omega
      by_cases hn : n < r.length
      · rw [if_pos (by omega), if_pos (by omega), e, e2]; simp
      · rw [if_neg (by omega), if_neg (by omega), if_neg (by omega)]
    · subst h
      rw [if_neg (by omega), if_pos rfl, if_pos (by omega)]; simp
    · rw [if_neg (by omega), if_neg (by omega), if_neg (by omega)]

theorem Tbl.erase_insert (t : Tbl α) (k : Nat) (v : α) : Tbl.erase (Tbl.insert t k v) k = Tbl.erase t k := by
  induction t with
  | nil => simp [Tbl.insert, Tbl.erase]
  | cons e r ih =>
    obtain ⟨i, u⟩ := e
    unfold Tbl.insert
    split
    · simp [Tbl.erase]
    · split
      · subst i; simp [Tbl.erase]
      · simp [Tbl.erase, ih]

theorem Tbl.insert_insert (t : Tbl α) (k : Nat) (v w : α) : Tbl.insert (Tbl.insert t k v) k w = Tbl.insert t k w := by
  induction t with
  | nil => simp [Tbl.insert]
  | cons e r ih =>
    obtain ⟨i, u⟩ := e
    by_cases h : k < i
    · simp [Tbl.insert, h]
    · by_cases h2 : i = k
      · simp [Tbl.insert, h2]
      · simp [Tbl.insert, h, h2, ih]

/-- The later of two writes stands, when the first is not the value of an unlisted key. -/
theorem Tbl.set_set [DecidableEq α] (d : α) (t : Tbl α) (k : Nat) {v : α} (w : α) (h : v ≠ d) :
    Tbl.set d (Tbl.set d t k v) k w = Tbl.set d t k w := by
  unfold Tbl.set
  rw [if_neg h]
  split
  · exact Tbl.erase_insert t k v
  · exact Tbl.insert_insert t k v w

/-! ## The canonical form -/

theorem Tbl.risingFrom_mono {t : Tbl α} {a b : Nat} (h : b ≤ a) (w : Tbl.risingFrom a t = true) :
    Tbl.risingFrom b t = true := by
  cases t with
  | nil => rfl
  | cons e r =>
    obtain ⟨i, u⟩ := e
    simp only [Tbl.risingFrom, Bool.and_eq_true, decide_eq_true_eq] at w ⊢
    exact ⟨by omega, w.2⟩

theorem Tbl.risingFrom_insert {t : Tbl α} {lo k : Nat} (v : α) (hk : lo ≤ k) (w : Tbl.risingFrom lo t = true) :
    Tbl.risingFrom lo (Tbl.insert t k v) = true := by
  induction t generalizing lo with
  | nil => simp [Tbl.insert, Tbl.risingFrom, hk]
  | cons e r ih =>
    obtain ⟨i, u⟩ := e
    simp only [Tbl.risingFrom, Bool.and_eq_true, decide_eq_true_eq] at w
    unfold Tbl.insert
    split
    · simp only [Tbl.risingFrom, Bool.and_eq_true, decide_eq_true_eq]; exact ⟨hk, by omega, w.2⟩
    · split
      · simp only [Tbl.risingFrom, Bool.and_eq_true, decide_eq_true_eq]; subst i; exact ⟨hk, w.2⟩
      · simp only [Tbl.risingFrom, Bool.and_eq_true, decide_eq_true_eq]; exact ⟨w.1, ih (by omega) w.2⟩

theorem Tbl.risingFrom_erase {t : Tbl α} {lo : Nat} (k : Nat) (w : Tbl.risingFrom lo t = true) :
    Tbl.risingFrom lo (Tbl.erase t k) = true := by
  induction t generalizing lo with
  | nil => rfl
  | cons e r ih =>
    obtain ⟨i, u⟩ := e
    simp only [Tbl.risingFrom, Bool.and_eq_true, decide_eq_true_eq] at w
    unfold Tbl.erase
    split
    · exact ih (Tbl.risingFrom_mono (by omega) w.2)
    · simp only [Tbl.risingFrom, Bool.and_eq_true, decide_eq_true_eq]; exact ⟨w.1, ih w.2⟩

theorem Tbl.risingFrom_filter {t : Tbl α} {lo : Nat} (p : Nat × α → Bool) (w : Tbl.risingFrom lo t = true) :
    Tbl.risingFrom lo (t.filter p) = true := by
  induction t generalizing lo with
  | nil => rfl
  | cons e r ih =>
    obtain ⟨i, u⟩ := e
    simp only [Tbl.risingFrom, Bool.and_eq_true, decide_eq_true_eq] at w
    rw [List.filter_cons]
    split
    · simp only [Tbl.risingFrom, Bool.and_eq_true, decide_eq_true_eq]; exact ⟨w.1, ih w.2⟩
    · exact ih (Tbl.risingFrom_mono (by omega) w.2)

theorem Tbl.mem_insert {t : Tbl α} {k : Nat} {v : α} {e : Nat × α} (h : e ∈ Tbl.insert t k v) : e = (k, v) ∨ e ∈ t := by
  induction t with
  | nil => simpa [Tbl.insert] using h
  | cons f r ih =>
    obtain ⟨i, u⟩ := f
    unfold Tbl.insert at h
    split at h
    · simpa using h
    · split at h
      · rcases List.mem_cons.1 h with h | h
        · exact .inl h
        · exact .inr (List.mem_cons_of_mem _ h)
      · rcases List.mem_cons.1 h with h | h
        · exact .inr (h ▸ List.mem_cons_self)
        · exact (ih h).imp_right (List.mem_cons_of_mem _)

theorem Tbl.mem_erase {t : Tbl α} {k : Nat} {e : Nat × α} (h : e ∈ Tbl.erase t k) : e ∈ t := by
  induction t with
  | nil => simp [Tbl.erase] at h
  | cons f r ih =>
    obtain ⟨i, u⟩ := f
    unfold Tbl.erase at h
    split at h
    · exact List.mem_cons_of_mem _ (ih h)
    · rcases List.mem_cons.1 h with h | h
      · exact h ▸ List.mem_cons_self
      · exact List.mem_cons_of_mem _ (ih h)

@[simp] theorem Tbl.wf_nil [DecidableEq α] (d : α) : Tbl.wf d [] = true := rfl

/-- A write keeps the canonical form. -/
theorem Tbl.wf_set [DecidableEq α] {d : α} {t : Tbl α} (k : Nat) (v : α) (w : Tbl.wf d t = true) :
    Tbl.wf d (Tbl.set d t k v) = true := by
  simp only [Tbl.wf, Bool.and_eq_true, List.all_eq_true, decide_eq_true_eq] at w ⊢
  unfold Tbl.set
  split
  · exact ⟨Tbl.risingFrom_erase k w.1, fun e he => w.2 e (Tbl.mem_erase he)⟩
  · refine ⟨Tbl.risingFrom_insert v (Nat.zero_le k) w.1, fun e he => ?_⟩
    rcases Tbl.mem_insert he with rfl | h
    · assumption
    · exact w.2 e h

/-- A run of writes keeps the canonical form. -/
theorem Tbl.wf_setMany [DecidableEq α] {d : α} {t : Tbl α} (b : Nat) (l : List α) (w : Tbl.wf d t = true) :
    Tbl.wf d (Tbl.setMany d t b l) = true := by
  induction l generalizing t b with
  | nil => exact w
  | cons v r ih => exact ih (b + 1) (Tbl.wf_set b v w)

/-- Taking entries out keeps the canonical form. -/
theorem Tbl.wf_filter [DecidableEq α] {d : α} {t : Tbl α} (p : Nat × α → Bool) (w : Tbl.wf d t = true) :
    Tbl.wf d (t.filter p) = true := by
  simp only [Tbl.wf, Bool.and_eq_true, List.all_eq_true, decide_eq_true_eq] at w ⊢
  exact ⟨Tbl.risingFrom_filter p w.1, fun e he => w.2 e (List.mem_filter.1 he).1⟩

end Sys2Proof.Machine
end

