-- ==== Sys2Proof/Laws/Issue.lean ====
section
/-!
SUPPORT. Reading a core after writing one, and what an instruction that issues does.
-/
namespace Sys2Proof.Machine

@[simp] theorem State.core_setCore (s : State) (c d : Nat) (k : Core) :
    (s.setCore c k).core d = if c = d then k else s.core d := Tbl.get_set _ _ _ _ _

theorem State.core_setCore_same (s : State) (c : Nat) (k : Core) : (s.setCore c k).core c = k := by simp

@[simp] theorem State.core_modCore (s : State) (c d : Nat) (f : Core → Core) :
    (s.modCore c f).core d = if c = d then f (s.core c) else s.core d := State.core_setCore s c d _

/-- The later of two writes of a core stands. -/
theorem State.setCore_setCore (s : State) (c : Nat) {k : Core} (j : Core) (h : k.run ≠ .atReset) :
    (s.setCore c k).setCore c j = s.setCore c j := by
  have hk : k ≠ Core.reset := fun e => h (by rw [e]; rfl)
  simp [State.setCore, Tbl.set_set _ _ _ _ hk]

theorem State.Free.issues {s : State} {c : Nat} (h : s.Free c) : s.issues c = true := by simp [State.issues, h.running, h.notEnded]

theorem State.awake_running {s : State} {c : Nat} (h : (s.core c).run = .running) : s.awake c = s := by simp [State.awake, h]

theorem State.takePending_none {s : State} {c : Nat} (h : (s.core c).pick = none) : s.takePending c = none := by
  unfold State.takePending; rw [h]

/-- A core that is live is not halted. -/
theorem State.live_not_stepping {s : State} {c : Nat} (h : s.live c = true) : s.stepping c = false := by
  simp only [State.live, Bool.and_eq_true, Bool.not_eq_true'] at h
  simp [State.stepping, h.1.2]

/-- An instruction that waits for no array work begins in the state in which it issues. -/
theorem State.begin_plain {s : State} {x : Issue} {h : Shape} (hb : h.before = none) : s.begin x h = s := by simp [State.begin, hb]

/-- An instruction that is ready runs its body, in the state in which its own work begins. -/
theorem State.issue_ready {s : State} {x : Issue} {h : Shape} (r : s.Ready x h) (body : State → Res) :
    s.issue x h body = (s.begin x h).finish x.core ((s.begin x h).core x.core) ((s.core x.core).after h x) ((body (s.begin x h)).reuseDrop x) := by
  have hl := State.live_not_stepping r.live
  have hi := r.toFree.issues
  have hw := State.awake_running r.running
  have hill : h.illegal x = none := by simpa [Shape.legal] using r.legal
  unfold State.issue
  simp only [r.noLoad, r.noWait, hl, r.live, hi, hw, State.takePending_none r.noPending]
  simp [State.issueAt, hill, r.fetched, Core.after, State.waited, r.quiet]

/-- An encoding that decoding rejects takes cause 0x01. -/
theorem State.issue_rejects {s : State} {x : Issue} {h : Shape} {o : Nat} (r : s.Rejects x h o) (body : State → Res) :
    s.issue x h body = s.trapped x.core 0x01 (word o) 0#72 := by
  have hl := State.live_not_stepping r.live
  have hi := r.toFree.issues
  have hw := State.awake_running r.running
  unfold State.issue
  simp only [r.noLoad, r.noWait, hl, r.live, hi, hw, State.takePending_none r.noPending]
  simp [State.issueAt, r.illegal, r.fetched, State.trapped]

/-- The end of an instruction whose body leaves no new trap. -/
theorem State.retire_plain {t : State} {c : Nat} {k0 : Core} {pc : Pair} (hs : k0.sstep = false)
    (hp : (t.core c).pTraps = k0.pTraps) : t.retire c k0 pc = t.setCore c { t.core c with pc := pc } := by
  simp [State.retire, Core.stepTrap, hs, hp]

/-- Dropping the latches changes nothing else of a core. -/
theorem Core.dropped_pTraps (k : Core) (x : Issue) : (k.dropped x).pTraps = k.pTraps := by unfold Core.dropped; split <;> rfl

/-- The core after the REUSE byte of its instruction. -/
theorem State.core_reuseDrop (s : State) (x : Issue) : (s.reuseDrop x).core x.core = (s.core x.core).dropped x := by
  unfold State.reuseDrop Core.dropped; split <;> simp

/-- An instruction that is ready, waits for no array work and changes only its core. -/
theorem State.issueCore_ready {s : State} {x : Issue} {h : Shape} (r : s.Ready x h) (hb : h.before = none) {f : Core → Core}
    (hp : (f (s.core x.core)).pTraps = (s.core x.core).pTraps) (hr : (f (s.core x.core)).run ≠ .atReset) :
    s.issueCore x h f = s.done x h (f (s.core x.core)) := by
  rw [State.issueCore, State.issue_ready r, State.begin_plain hb]
  have hd : ((f (s.core x.core)).dropLatches).run ≠ .atReset := hr
  simp only [Res.reuseDrop, State.finish]
  rw [State.retire_plain r.noStep (by rw [State.core_reuseDrop, Core.dropped_pTraps]; simpa using hp), State.core_reuseDrop]
  unfold State.reuseDrop
  split <;> simp [State.modCore, State.done, State.setCore_setCore s x.core _ hr, State.setCore_setCore s x.core _ hd]

end Sys2Proof.Machine
end

