-- ==== Sys2Proof/Laws/State.lean ====
section
/-!
SUPPORT. What each named update of the state leaves: one lemma per field per update, and what a read gives after a write.
-/
namespace Sys2Proof.Machine

/-! ## State.setCore -/

@[simp] theorem State.setCore_pending (s : State) (c : Nat) (k : Core) : (s.setCore c k).pending = s.pending := rfl
@[simp] theorem State.setCore_variant (s : State) (c : Nat) (k : Core) : (s.setCore c k).variant = s.variant := rfl
@[simp] theorem State.setCore_monitor (s : State) (c : Nat) (k : Core) : (s.setCore c k).monitor = s.monitor := rfl
@[simp] theorem State.setCore_thirdFault (s : State) (c : Nat) (k : Core) : (s.setCore c k).thirdFault = s.thirdFault := rfl
@[simp] theorem State.setCore_retired (s : State) (c : Nat) (k : Core) : (s.setCore c k).retired = s.retired := rfl
@[simp] theorem State.setCore_mxroot (s : State) (c : Nat) (k : Core) : (s.setCore c k).mxroot = s.mxroot := rfl
@[simp] theorem State.setCore_mem (s : State) (c : Nat) (k : Core) : (s.setCore c k).mem = s.mem := rfl
@[simp] theorem State.setCore_poison (s : State) (c : Nat) (k : Core) : (s.setCore c k).poison = s.poison := rfl
@[simp] theorem State.setCore_lsBad (s : State) (c : Nat) (k : Core) : (s.setCore c k).lsBad = s.lsBad := rfl
@[simp] theorem State.setCore_ctl (s : State) (c : Nat) (k : Core) : (s.setCore c k).ctl = s.ctl := rfl
@[simp] theorem State.setCore_tickCount (s : State) (c : Nat) (k : Core) : (s.setCore c k).tickCount = s.tickCount := rfl
@[simp] theorem State.setCore_tickShadow (s : State) (c : Nat) (k : Core) : (s.setCore c k).tickShadow = s.tickShadow := rfl
@[simp] theorem State.setCore_tickStage (s : State) (c : Nat) (k : Core) : (s.setCore c k).tickStage = s.tickStage := rfl
@[simp] theorem State.setCore_syncGood (s : State) (c : Nat) (k : Core) : (s.setCore c k).syncGood = s.syncGood := rfl
@[simp] theorem State.setCore_syncMissed (s : State) (c : Nat) (k : Core) : (s.setCore c k).syncMissed = s.syncMissed := rfl
@[simp] theorem State.setCore_syncSeen (s : State) (c : Nat) (k : Core) : (s.setCore c k).syncSeen = s.syncSeen := rfl
@[simp] theorem State.setCore_switchKnown (s : State) (c : Nat) (k : Core) : (s.setCore c k).switchKnown = s.switchKnown := rfl
@[simp] theorem State.setCore_lockReady (s : State) (c : Nat) (k : Core) : (s.setCore c k).lockReady = s.lockReady := rfl
@[simp] theorem State.setCore_syncStepped (s : State) (c : Nat) (k : Core) : (s.setCore c k).syncStepped = s.syncStepped := rfl
@[simp] theorem State.setCore_syncPeriod (s : State) (c : Nat) (k : Core) : (s.setCore c k).syncPeriod = s.syncPeriod := rfl
@[simp] theorem State.setCore_syncMaster (s : State) (c : Nat) (k : Core) : (s.setCore c k).syncMaster = s.syncMaster := rfl
@[simp] theorem State.setCore_sched (s : State) (c : Nat) (k : Core) : (s.setCore c k).sched = s.sched := rfl
@[simp] theorem State.setCore_clockStep (s : State) (c : Nat) (k : Core) : (s.setCore c k).clockStep = s.clockStep := rfl
@[simp] theorem State.setCore_tcLines (s : State) (c : Nat) (k : Core) : (s.setCore c k).tcLines = s.tcLines := rfl
@[simp] theorem State.setCore_l1d (s : State) (c : Nat) (k : Core) : (s.setCore c k).l1d = s.l1d := rfl
@[simp] theorem State.setCore_l1i (s : State) (c : Nat) (k : Core) : (s.setCore c k).l1i = s.l1i := rfl
@[simp] theorem State.setCore_memReqs (s : State) (c : Nat) (k : Core) : (s.setCore c k).memReqs = s.memReqs := rfl
@[simp] theorem State.setCore_cxlSlots (s : State) (c : Nat) (k : Core) : (s.setCore c k).cxlSlots = s.cxlSlots := rfl
@[simp] theorem State.setCore_remoteTimeout (s : State) (c : Nat) (k : Core) : (s.setCore c k).remoteTimeout = s.remoteTimeout := rfl
@[simp] theorem State.setCore_cxlRanges (s : State) (c : Nat) (k : Core) : (s.setCore c k).cxlRanges = s.cxlRanges := rfl
@[simp] theorem State.setCore_cxlDown (s : State) (c : Nat) (k : Core) : (s.setCore c k).cxlDown = s.cxlDown := rfl
@[simp] theorem State.setCore_remote (s : State) (c : Nat) (k : Core) : (s.setCore c k).remote = s.remote := rfl
@[simp] theorem State.setCore_semHost (s : State) (c : Nat) (k : Core) : (s.setCore c k).semHost = s.semHost := rfl
@[simp] theorem State.setCore_semUps (s : State) (c : Nat) (k : Core) : (s.setCore c k).semUps = s.semUps := rfl
@[simp] theorem State.setCore_arb (s : State) (c : Nat) (k : Core) : (s.setCore c k).arb = s.arb := rfl
@[simp] theorem State.setCore_dma (s : State) (c : Nat) (k : Core) : (s.setCore c k).dma = s.dma := rfl
@[simp] theorem State.setCore_fabPorts (s : State) (c : Nat) (k : Core) : (s.setCore c k).fabPorts = s.fabPorts := rfl
@[simp] theorem State.setCore_fab (s : State) (c : Nat) (k : Core) : (s.setCore c k).fab = s.fab := rfl
@[simp] theorem State.setCore_flows (s : State) (c : Nat) (k : Core) : (s.setCore c k).flows = s.flows := rfl
@[simp] theorem State.setCore_eph (s : State) (c : Nat) (k : Core) : (s.setCore c k).eph = s.eph := rfl
@[simp] theorem State.setCore_ce (s : State) (c : Nat) (k : Core) : (s.setCore c k).ce = s.ce := rfl
@[simp] theorem State.setCore_bar0 (s : State) (c : Nat) (k : Core) : (s.setCore c k).bar0 = s.bar0 := rfl
@[simp] theorem State.setCore_msixCtl (s : State) (c : Nat) (k : Core) : (s.setCore c k).msixCtl = s.msixCtl := rfl
@[simp] theorem State.setCore_ranas (s : State) (c : Nat) (k : Core) : (s.setCore c k).ranas = s.ranas := rfl
@[simp] theorem State.setCore_log (s : State) (c : Nat) (k : Core) : (s.setCore c k).log = s.log := rfl
@[simp] theorem State.setCore_freeCtr (s : State) (c : Nat) (k : Core) : (s.setCore c k).freeCtr = s.freeCtr := rfl
@[simp] theorem State.setCore_out (s : State) (c : Nat) (k : Core) : (s.setCore c k).out = s.out := rfl

/-! ## State.modCore -/

@[simp] theorem State.modCore_pending (s : State) (c : Nat) (f : Core → Core) : (s.modCore c f).pending = s.pending := rfl
@[simp] theorem State.modCore_variant (s : State) (c : Nat) (f : Core → Core) : (s.modCore c f).variant = s.variant := rfl
@[simp] theorem State.modCore_monitor (s : State) (c : Nat) (f : Core → Core) : (s.modCore c f).monitor = s.monitor := rfl
@[simp] theorem State.modCore_thirdFault (s : State) (c : Nat) (f : Core → Core) : (s.modCore c f).thirdFault = s.thirdFault := rfl
@[simp] theorem State.modCore_retired (s : State) (c : Nat) (f : Core → Core) : (s.modCore c f).retired = s.retired := rfl
@[simp] theorem State.modCore_mxroot (s : State) (c : Nat) (f : Core → Core) : (s.modCore c f).mxroot = s.mxroot := rfl
@[simp] theorem State.modCore_mem (s : State) (c : Nat) (f : Core → Core) : (s.modCore c f).mem = s.mem := rfl
@[simp] theorem State.modCore_poison (s : State) (c : Nat) (f : Core → Core) : (s.modCore c f).poison = s.poison := rfl
@[simp] theorem State.modCore_lsBad (s : State) (c : Nat) (f : Core → Core) : (s.modCore c f).lsBad = s.lsBad := rfl
@[simp] theorem State.modCore_ctl (s : State) (c : Nat) (f : Core → Core) : (s.modCore c f).ctl = s.ctl := rfl
@[simp] theorem State.modCore_tickCount (s : State) (c : Nat) (f : Core → Core) : (s.modCore c f).tickCount = s.tickCount := rfl
@[simp] theorem State.modCore_tickShadow (s : State) (c : Nat) (f : Core → Core) : (s.modCore c f).tickShadow = s.tickShadow := rfl
@[simp] theorem State.modCore_tickStage (s : State) (c : Nat) (f : Core → Core) : (s.modCore c f).tickStage = s.tickStage := rfl
@[simp] theorem State.modCore_syncGood (s : State) (c : Nat) (f : Core → Core) : (s.modCore c f).syncGood = s.syncGood := rfl
@[simp] theorem State.modCore_syncMissed (s : State) (c : Nat) (f : Core → Core) : (s.modCore c f).syncMissed = s.syncMissed := rfl
@[simp] theorem State.modCore_syncSeen (s : State) (c : Nat) (f : Core → Core) : (s.modCore c f).syncSeen = s.syncSeen := rfl
@[simp] theorem State.modCore_switchKnown (s : State) (c : Nat) (f : Core → Core) : (s.modCore c f).switchKnown = s.switchKnown := rfl
@[simp] theorem State.modCore_lockReady (s : State) (c : Nat) (f : Core → Core) : (s.modCore c f).lockReady = s.lockReady := rfl
@[simp] theorem State.modCore_syncStepped (s : State) (c : Nat) (f : Core → Core) : (s.modCore c f).syncStepped = s.syncStepped := rfl
@[simp] theorem State.modCore_syncPeriod (s : State) (c : Nat) (f : Core → Core) : (s.modCore c f).syncPeriod = s.syncPeriod := rfl
@[simp] theorem State.modCore_syncMaster (s : State) (c : Nat) (f : Core → Core) : (s.modCore c f).syncMaster = s.syncMaster := rfl
@[simp] theorem State.modCore_sched (s : State) (c : Nat) (f : Core → Core) : (s.modCore c f).sched = s.sched := rfl
@[simp] theorem State.modCore_clockStep (s : State) (c : Nat) (f : Core → Core) : (s.modCore c f).clockStep = s.clockStep := rfl
@[simp] theorem State.modCore_tcLines (s : State) (c : Nat) (f : Core → Core) : (s.modCore c f).tcLines = s.tcLines := rfl
@[simp] theorem State.modCore_l1d (s : State) (c : Nat) (f : Core → Core) : (s.modCore c f).l1d = s.l1d := rfl
@[simp] theorem State.modCore_l1i (s : State) (c : Nat) (f : Core → Core) : (s.modCore c f).l1i = s.l1i := rfl
@[simp] theorem State.modCore_memReqs (s : State) (c : Nat) (f : Core → Core) : (s.modCore c f).memReqs = s.memReqs := rfl
@[simp] theorem State.modCore_cxlSlots (s : State) (c : Nat) (f : Core → Core) : (s.modCore c f).cxlSlots = s.cxlSlots := rfl
@[simp] theorem State.modCore_remoteTimeout (s : State) (c : Nat) (f : Core → Core) : (s.modCore c f).remoteTimeout = s.remoteTimeout := rfl
@[simp] theorem State.modCore_cxlRanges (s : State) (c : Nat) (f : Core → Core) : (s.modCore c f).cxlRanges = s.cxlRanges := rfl
@[simp] theorem State.modCore_cxlDown (s : State) (c : Nat) (f : Core → Core) : (s.modCore c f).cxlDown = s.cxlDown := rfl
@[simp] theorem State.modCore_remote (s : State) (c : Nat) (f : Core → Core) : (s.modCore c f).remote = s.remote := rfl
@[simp] theorem State.modCore_semHost (s : State) (c : Nat) (f : Core → Core) : (s.modCore c f).semHost = s.semHost := rfl
@[simp] theorem State.modCore_semUps (s : State) (c : Nat) (f : Core → Core) : (s.modCore c f).semUps = s.semUps := rfl
@[simp] theorem State.modCore_arb (s : State) (c : Nat) (f : Core → Core) : (s.modCore c f).arb = s.arb := rfl
@[simp] theorem State.modCore_dma (s : State) (c : Nat) (f : Core → Core) : (s.modCore c f).dma = s.dma := rfl
@[simp] theorem State.modCore_fabPorts (s : State) (c : Nat) (f : Core → Core) : (s.modCore c f).fabPorts = s.fabPorts := rfl
@[simp] theorem State.modCore_fab (s : State) (c : Nat) (f : Core → Core) : (s.modCore c f).fab = s.fab := rfl
@[simp] theorem State.modCore_flows (s : State) (c : Nat) (f : Core → Core) : (s.modCore c f).flows = s.flows := rfl
@[simp] theorem State.modCore_eph (s : State) (c : Nat) (f : Core → Core) : (s.modCore c f).eph = s.eph := rfl
@[simp] theorem State.modCore_ce (s : State) (c : Nat) (f : Core → Core) : (s.modCore c f).ce = s.ce := rfl
@[simp] theorem State.modCore_bar0 (s : State) (c : Nat) (f : Core → Core) : (s.modCore c f).bar0 = s.bar0 := rfl
@[simp] theorem State.modCore_msixCtl (s : State) (c : Nat) (f : Core → Core) : (s.modCore c f).msixCtl = s.msixCtl := rfl
@[simp] theorem State.modCore_ranas (s : State) (c : Nat) (f : Core → Core) : (s.modCore c f).ranas = s.ranas := rfl
@[simp] theorem State.modCore_log (s : State) (c : Nat) (f : Core → Core) : (s.modCore c f).log = s.log := rfl
@[simp] theorem State.modCore_freeCtr (s : State) (c : Nat) (f : Core → Core) : (s.modCore c f).freeCtr = s.freeCtr := rfl
@[simp] theorem State.modCore_out (s : State) (c : Nat) (f : Core → Core) : (s.modCore c f).out = s.out := rfl

/-! ## State.ctlSet -/

@[simp] theorem State.ctlSet_pending (s : State) (o : Nat) (w : Word) : (s.ctlSet o w).pending = s.pending := rfl
@[simp] theorem State.ctlSet_variant (s : State) (o : Nat) (w : Word) : (s.ctlSet o w).variant = s.variant := rfl
@[simp] theorem State.ctlSet_cores (s : State) (o : Nat) (w : Word) : (s.ctlSet o w).cores = s.cores := rfl
@[simp] theorem State.ctlSet_monitor (s : State) (o : Nat) (w : Word) : (s.ctlSet o w).monitor = s.monitor := rfl
@[simp] theorem State.ctlSet_thirdFault (s : State) (o : Nat) (w : Word) : (s.ctlSet o w).thirdFault = s.thirdFault := rfl
@[simp] theorem State.ctlSet_retired (s : State) (o : Nat) (w : Word) : (s.ctlSet o w).retired = s.retired := rfl
@[simp] theorem State.ctlSet_mxroot (s : State) (o : Nat) (w : Word) : (s.ctlSet o w).mxroot = s.mxroot := rfl
@[simp] theorem State.ctlSet_mem (s : State) (o : Nat) (w : Word) : (s.ctlSet o w).mem = s.mem := rfl
@[simp] theorem State.ctlSet_poison (s : State) (o : Nat) (w : Word) : (s.ctlSet o w).poison = s.poison := rfl
@[simp] theorem State.ctlSet_lsBad (s : State) (o : Nat) (w : Word) : (s.ctlSet o w).lsBad = s.lsBad := rfl
@[simp] theorem State.ctlSet_tickCount (s : State) (o : Nat) (w : Word) : (s.ctlSet o w).tickCount = s.tickCount := rfl
@[simp] theorem State.ctlSet_tickShadow (s : State) (o : Nat) (w : Word) : (s.ctlSet o w).tickShadow = s.tickShadow := rfl
@[simp] theorem State.ctlSet_tickStage (s : State) (o : Nat) (w : Word) : (s.ctlSet o w).tickStage = s.tickStage := rfl
@[simp] theorem State.ctlSet_syncGood (s : State) (o : Nat) (w : Word) : (s.ctlSet o w).syncGood = s.syncGood := rfl
@[simp] theorem State.ctlSet_syncMissed (s : State) (o : Nat) (w : Word) : (s.ctlSet o w).syncMissed = s.syncMissed := rfl
@[simp] theorem State.ctlSet_syncSeen (s : State) (o : Nat) (w : Word) : (s.ctlSet o w).syncSeen = s.syncSeen := rfl
@[simp] theorem State.ctlSet_switchKnown (s : State) (o : Nat) (w : Word) : (s.ctlSet o w).switchKnown = s.switchKnown := rfl
@[simp] theorem State.ctlSet_lockReady (s : State) (o : Nat) (w : Word) : (s.ctlSet o w).lockReady = s.lockReady := rfl
@[simp] theorem State.ctlSet_syncStepped (s : State) (o : Nat) (w : Word) : (s.ctlSet o w).syncStepped = s.syncStepped := rfl
@[simp] theorem State.ctlSet_syncPeriod (s : State) (o : Nat) (w : Word) : (s.ctlSet o w).syncPeriod = s.syncPeriod := rfl
@[simp] theorem State.ctlSet_syncMaster (s : State) (o : Nat) (w : Word) : (s.ctlSet o w).syncMaster = s.syncMaster := rfl
@[simp] theorem State.ctlSet_sched (s : State) (o : Nat) (w : Word) : (s.ctlSet o w).sched = s.sched := rfl
@[simp] theorem State.ctlSet_clockStep (s : State) (o : Nat) (w : Word) : (s.ctlSet o w).clockStep = s.clockStep := rfl
@[simp] theorem State.ctlSet_tcLines (s : State) (o : Nat) (w : Word) : (s.ctlSet o w).tcLines = s.tcLines := rfl
@[simp] theorem State.ctlSet_l1d (s : State) (o : Nat) (w : Word) : (s.ctlSet o w).l1d = s.l1d := rfl
@[simp] theorem State.ctlSet_l1i (s : State) (o : Nat) (w : Word) : (s.ctlSet o w).l1i = s.l1i := rfl
@[simp] theorem State.ctlSet_memReqs (s : State) (o : Nat) (w : Word) : (s.ctlSet o w).memReqs = s.memReqs := rfl
@[simp] theorem State.ctlSet_cxlSlots (s : State) (o : Nat) (w : Word) : (s.ctlSet o w).cxlSlots = s.cxlSlots := rfl
@[simp] theorem State.ctlSet_remoteTimeout (s : State) (o : Nat) (w : Word) : (s.ctlSet o w).remoteTimeout = s.remoteTimeout := rfl
@[simp] theorem State.ctlSet_cxlRanges (s : State) (o : Nat) (w : Word) : (s.ctlSet o w).cxlRanges = s.cxlRanges := rfl
@[simp] theorem State.ctlSet_cxlDown (s : State) (o : Nat) (w : Word) : (s.ctlSet o w).cxlDown = s.cxlDown := rfl
@[simp] theorem State.ctlSet_remote (s : State) (o : Nat) (w : Word) : (s.ctlSet o w).remote = s.remote := rfl
@[simp] theorem State.ctlSet_semHost (s : State) (o : Nat) (w : Word) : (s.ctlSet o w).semHost = s.semHost := rfl
@[simp] theorem State.ctlSet_semUps (s : State) (o : Nat) (w : Word) : (s.ctlSet o w).semUps = s.semUps := rfl
@[simp] theorem State.ctlSet_arb (s : State) (o : Nat) (w : Word) : (s.ctlSet o w).arb = s.arb := rfl
@[simp] theorem State.ctlSet_dma (s : State) (o : Nat) (w : Word) : (s.ctlSet o w).dma = s.dma := rfl
@[simp] theorem State.ctlSet_fabPorts (s : State) (o : Nat) (w : Word) : (s.ctlSet o w).fabPorts = s.fabPorts := rfl
@[simp] theorem State.ctlSet_fab (s : State) (o : Nat) (w : Word) : (s.ctlSet o w).fab = s.fab := rfl
@[simp] theorem State.ctlSet_flows (s : State) (o : Nat) (w : Word) : (s.ctlSet o w).flows = s.flows := rfl
@[simp] theorem State.ctlSet_eph (s : State) (o : Nat) (w : Word) : (s.ctlSet o w).eph = s.eph := rfl
@[simp] theorem State.ctlSet_ce (s : State) (o : Nat) (w : Word) : (s.ctlSet o w).ce = s.ce := rfl
@[simp] theorem State.ctlSet_bar0 (s : State) (o : Nat) (w : Word) : (s.ctlSet o w).bar0 = s.bar0 := rfl
@[simp] theorem State.ctlSet_msixCtl (s : State) (o : Nat) (w : Word) : (s.ctlSet o w).msixCtl = s.msixCtl := rfl
@[simp] theorem State.ctlSet_ranas (s : State) (o : Nat) (w : Word) : (s.ctlSet o w).ranas = s.ranas := rfl
@[simp] theorem State.ctlSet_log (s : State) (o : Nat) (w : Word) : (s.ctlSet o w).log = s.log := rfl
@[simp] theorem State.ctlSet_freeCtr (s : State) (o : Nat) (w : Word) : (s.ctlSet o w).freeCtr = s.freeCtr := rfl
@[simp] theorem State.ctlSet_out (s : State) (o : Nat) (w : Word) : (s.ctlSet o w).out = s.out := rfl

/-! ## State.ctlPut -/

@[simp] theorem State.ctlPut_pending (s : State) (o lo len v : Nat) : (s.ctlPut o lo len v).pending = s.pending := rfl
@[simp] theorem State.ctlPut_variant (s : State) (o lo len v : Nat) : (s.ctlPut o lo len v).variant = s.variant := rfl
@[simp] theorem State.ctlPut_cores (s : State) (o lo len v : Nat) : (s.ctlPut o lo len v).cores = s.cores := rfl
@[simp] theorem State.ctlPut_monitor (s : State) (o lo len v : Nat) : (s.ctlPut o lo len v).monitor = s.monitor := rfl
@[simp] theorem State.ctlPut_thirdFault (s : State) (o lo len v : Nat) : (s.ctlPut o lo len v).thirdFault = s.thirdFault := rfl
@[simp] theorem State.ctlPut_retired (s : State) (o lo len v : Nat) : (s.ctlPut o lo len v).retired = s.retired := rfl
@[simp] theorem State.ctlPut_mxroot (s : State) (o lo len v : Nat) : (s.ctlPut o lo len v).mxroot = s.mxroot := rfl
@[simp] theorem State.ctlPut_mem (s : State) (o lo len v : Nat) : (s.ctlPut o lo len v).mem = s.mem := rfl
@[simp] theorem State.ctlPut_poison (s : State) (o lo len v : Nat) : (s.ctlPut o lo len v).poison = s.poison := rfl
@[simp] theorem State.ctlPut_lsBad (s : State) (o lo len v : Nat) : (s.ctlPut o lo len v).lsBad = s.lsBad := rfl
@[simp] theorem State.ctlPut_tickCount (s : State) (o lo len v : Nat) : (s.ctlPut o lo len v).tickCount = s.tickCount := rfl
@[simp] theorem State.ctlPut_tickShadow (s : State) (o lo len v : Nat) : (s.ctlPut o lo len v).tickShadow = s.tickShadow := rfl
@[simp] theorem State.ctlPut_tickStage (s : State) (o lo len v : Nat) : (s.ctlPut o lo len v).tickStage = s.tickStage := rfl
@[simp] theorem State.ctlPut_syncGood (s : State) (o lo len v : Nat) : (s.ctlPut o lo len v).syncGood = s.syncGood := rfl
@[simp] theorem State.ctlPut_syncMissed (s : State) (o lo len v : Nat) : (s.ctlPut o lo len v).syncMissed = s.syncMissed := rfl
@[simp] theorem State.ctlPut_syncSeen (s : State) (o lo len v : Nat) : (s.ctlPut o lo len v).syncSeen = s.syncSeen := rfl
@[simp] theorem State.ctlPut_switchKnown (s : State) (o lo len v : Nat) : (s.ctlPut o lo len v).switchKnown = s.switchKnown := rfl
@[simp] theorem State.ctlPut_lockReady (s : State) (o lo len v : Nat) : (s.ctlPut o lo len v).lockReady = s.lockReady := rfl
@[simp] theorem State.ctlPut_syncStepped (s : State) (o lo len v : Nat) : (s.ctlPut o lo len v).syncStepped = s.syncStepped := rfl
@[simp] theorem State.ctlPut_syncPeriod (s : State) (o lo len v : Nat) : (s.ctlPut o lo len v).syncPeriod = s.syncPeriod := rfl
@[simp] theorem State.ctlPut_syncMaster (s : State) (o lo len v : Nat) : (s.ctlPut o lo len v).syncMaster = s.syncMaster := rfl
@[simp] theorem State.ctlPut_sched (s : State) (o lo len v : Nat) : (s.ctlPut o lo len v).sched = s.sched := rfl
@[simp] theorem State.ctlPut_clockStep (s : State) (o lo len v : Nat) : (s.ctlPut o lo len v).clockStep = s.clockStep := rfl
@[simp] theorem State.ctlPut_tcLines (s : State) (o lo len v : Nat) : (s.ctlPut o lo len v).tcLines = s.tcLines := rfl
@[simp] theorem State.ctlPut_l1d (s : State) (o lo len v : Nat) : (s.ctlPut o lo len v).l1d = s.l1d := rfl
@[simp] theorem State.ctlPut_l1i (s : State) (o lo len v : Nat) : (s.ctlPut o lo len v).l1i = s.l1i := rfl
@[simp] theorem State.ctlPut_memReqs (s : State) (o lo len v : Nat) : (s.ctlPut o lo len v).memReqs = s.memReqs := rfl
@[simp] theorem State.ctlPut_cxlSlots (s : State) (o lo len v : Nat) : (s.ctlPut o lo len v).cxlSlots = s.cxlSlots := rfl
@[simp] theorem State.ctlPut_remoteTimeout (s : State) (o lo len v : Nat) : (s.ctlPut o lo len v).remoteTimeout = s.remoteTimeout := rfl
@[simp] theorem State.ctlPut_cxlRanges (s : State) (o lo len v : Nat) : (s.ctlPut o lo len v).cxlRanges = s.cxlRanges := rfl
@[simp] theorem State.ctlPut_cxlDown (s : State) (o lo len v : Nat) : (s.ctlPut o lo len v).cxlDown = s.cxlDown := rfl
@[simp] theorem State.ctlPut_remote (s : State) (o lo len v : Nat) : (s.ctlPut o lo len v).remote = s.remote := rfl
@[simp] theorem State.ctlPut_semHost (s : State) (o lo len v : Nat) : (s.ctlPut o lo len v).semHost = s.semHost := rfl
@[simp] theorem State.ctlPut_semUps (s : State) (o lo len v : Nat) : (s.ctlPut o lo len v).semUps = s.semUps := rfl
@[simp] theorem State.ctlPut_arb (s : State) (o lo len v : Nat) : (s.ctlPut o lo len v).arb = s.arb := rfl
@[simp] theorem State.ctlPut_dma (s : State) (o lo len v : Nat) : (s.ctlPut o lo len v).dma = s.dma := rfl
@[simp] theorem State.ctlPut_fabPorts (s : State) (o lo len v : Nat) : (s.ctlPut o lo len v).fabPorts = s.fabPorts := rfl
@[simp] theorem State.ctlPut_fab (s : State) (o lo len v : Nat) : (s.ctlPut o lo len v).fab = s.fab := rfl
@[simp] theorem State.ctlPut_flows (s : State) (o lo len v : Nat) : (s.ctlPut o lo len v).flows = s.flows := rfl
@[simp] theorem State.ctlPut_eph (s : State) (o lo len v : Nat) : (s.ctlPut o lo len v).eph = s.eph := rfl
@[simp] theorem State.ctlPut_ce (s : State) (o lo len v : Nat) : (s.ctlPut o lo len v).ce = s.ce := rfl
@[simp] theorem State.ctlPut_bar0 (s : State) (o lo len v : Nat) : (s.ctlPut o lo len v).bar0 = s.bar0 := rfl
@[simp] theorem State.ctlPut_msixCtl (s : State) (o lo len v : Nat) : (s.ctlPut o lo len v).msixCtl = s.msixCtl := rfl
@[simp] theorem State.ctlPut_ranas (s : State) (o lo len v : Nat) : (s.ctlPut o lo len v).ranas = s.ranas := rfl
@[simp] theorem State.ctlPut_log (s : State) (o lo len v : Nat) : (s.ctlPut o lo len v).log = s.log := rfl
@[simp] theorem State.ctlPut_freeCtr (s : State) (o lo len v : Nat) : (s.ctlPut o lo len v).freeCtr = s.freeCtr := rfl
@[simp] theorem State.ctlPut_out (s : State) (o lo len v : Nat) : (s.ctlPut o lo len v).out = s.out := rfl

/-! ## State.ctlCount -/

@[simp] theorem State.ctlCount_pending (s : State) (o lo len : Nat) : (s.ctlCount o lo len).pending = s.pending := rfl
@[simp] theorem State.ctlCount_variant (s : State) (o lo len : Nat) : (s.ctlCount o lo len).variant = s.variant := rfl
@[simp] theorem State.ctlCount_cores (s : State) (o lo len : Nat) : (s.ctlCount o lo len).cores = s.cores := rfl
@[simp] theorem State.ctlCount_monitor (s : State) (o lo len : Nat) : (s.ctlCount o lo len).monitor = s.monitor := rfl
@[simp] theorem State.ctlCount_thirdFault (s : State) (o lo len : Nat) : (s.ctlCount o lo len).thirdFault = s.thirdFault := rfl
@[simp] theorem State.ctlCount_retired (s : State) (o lo len : Nat) : (s.ctlCount o lo len).retired = s.retired := rfl
@[simp] theorem State.ctlCount_mxroot (s : State) (o lo len : Nat) : (s.ctlCount o lo len).mxroot = s.mxroot := rfl
@[simp] theorem State.ctlCount_mem (s : State) (o lo len : Nat) : (s.ctlCount o lo len).mem = s.mem := rfl
@[simp] theorem State.ctlCount_poison (s : State) (o lo len : Nat) : (s.ctlCount o lo len).poison = s.poison := rfl
@[simp] theorem State.ctlCount_lsBad (s : State) (o lo len : Nat) : (s.ctlCount o lo len).lsBad = s.lsBad := rfl
@[simp] theorem State.ctlCount_tickCount (s : State) (o lo len : Nat) : (s.ctlCount o lo len).tickCount = s.tickCount := rfl
@[simp] theorem State.ctlCount_tickShadow (s : State) (o lo len : Nat) : (s.ctlCount o lo len).tickShadow = s.tickShadow := rfl
@[simp] theorem State.ctlCount_tickStage (s : State) (o lo len : Nat) : (s.ctlCount o lo len).tickStage = s.tickStage := rfl
@[simp] theorem State.ctlCount_syncGood (s : State) (o lo len : Nat) : (s.ctlCount o lo len).syncGood = s.syncGood := rfl
@[simp] theorem State.ctlCount_syncMissed (s : State) (o lo len : Nat) : (s.ctlCount o lo len).syncMissed = s.syncMissed := rfl
@[simp] theorem State.ctlCount_syncSeen (s : State) (o lo len : Nat) : (s.ctlCount o lo len).syncSeen = s.syncSeen := rfl
@[simp] theorem State.ctlCount_switchKnown (s : State) (o lo len : Nat) : (s.ctlCount o lo len).switchKnown = s.switchKnown := rfl
@[simp] theorem State.ctlCount_lockReady (s : State) (o lo len : Nat) : (s.ctlCount o lo len).lockReady = s.lockReady := rfl
@[simp] theorem State.ctlCount_syncStepped (s : State) (o lo len : Nat) : (s.ctlCount o lo len).syncStepped = s.syncStepped := rfl
@[simp] theorem State.ctlCount_syncPeriod (s : State) (o lo len : Nat) : (s.ctlCount o lo len).syncPeriod = s.syncPeriod := rfl
@[simp] theorem State.ctlCount_syncMaster (s : State) (o lo len : Nat) : (s.ctlCount o lo len).syncMaster = s.syncMaster := rfl
@[simp] theorem State.ctlCount_sched (s : State) (o lo len : Nat) : (s.ctlCount o lo len).sched = s.sched := rfl
@[simp] theorem State.ctlCount_clockStep (s : State) (o lo len : Nat) : (s.ctlCount o lo len).clockStep = s.clockStep := rfl
@[simp] theorem State.ctlCount_tcLines (s : State) (o lo len : Nat) : (s.ctlCount o lo len).tcLines = s.tcLines := rfl
@[simp] theorem State.ctlCount_l1d (s : State) (o lo len : Nat) : (s.ctlCount o lo len).l1d = s.l1d := rfl
@[simp] theorem State.ctlCount_l1i (s : State) (o lo len : Nat) : (s.ctlCount o lo len).l1i = s.l1i := rfl
@[simp] theorem State.ctlCount_memReqs (s : State) (o lo len : Nat) : (s.ctlCount o lo len).memReqs = s.memReqs := rfl
@[simp] theorem State.ctlCount_cxlSlots (s : State) (o lo len : Nat) : (s.ctlCount o lo len).cxlSlots = s.cxlSlots := rfl
@[simp] theorem State.ctlCount_remoteTimeout (s : State) (o lo len : Nat) : (s.ctlCount o lo len).remoteTimeout = s.remoteTimeout := rfl
@[simp] theorem State.ctlCount_cxlRanges (s : State) (o lo len : Nat) : (s.ctlCount o lo len).cxlRanges = s.cxlRanges := rfl
@[simp] theorem State.ctlCount_cxlDown (s : State) (o lo len : Nat) : (s.ctlCount o lo len).cxlDown = s.cxlDown := rfl
@[simp] theorem State.ctlCount_remote (s : State) (o lo len : Nat) : (s.ctlCount o lo len).remote = s.remote := rfl
@[simp] theorem State.ctlCount_semHost (s : State) (o lo len : Nat) : (s.ctlCount o lo len).semHost = s.semHost := rfl
@[simp] theorem State.ctlCount_semUps (s : State) (o lo len : Nat) : (s.ctlCount o lo len).semUps = s.semUps := rfl
@[simp] theorem State.ctlCount_arb (s : State) (o lo len : Nat) : (s.ctlCount o lo len).arb = s.arb := rfl
@[simp] theorem State.ctlCount_dma (s : State) (o lo len : Nat) : (s.ctlCount o lo len).dma = s.dma := rfl
@[simp] theorem State.ctlCount_fabPorts (s : State) (o lo len : Nat) : (s.ctlCount o lo len).fabPorts = s.fabPorts := rfl
@[simp] theorem State.ctlCount_fab (s : State) (o lo len : Nat) : (s.ctlCount o lo len).fab = s.fab := rfl
@[simp] theorem State.ctlCount_flows (s : State) (o lo len : Nat) : (s.ctlCount o lo len).flows = s.flows := rfl
@[simp] theorem State.ctlCount_eph (s : State) (o lo len : Nat) : (s.ctlCount o lo len).eph = s.eph := rfl
@[simp] theorem State.ctlCount_ce (s : State) (o lo len : Nat) : (s.ctlCount o lo len).ce = s.ce := rfl
@[simp] theorem State.ctlCount_bar0 (s : State) (o lo len : Nat) : (s.ctlCount o lo len).bar0 = s.bar0 := rfl
@[simp] theorem State.ctlCount_msixCtl (s : State) (o lo len : Nat) : (s.ctlCount o lo len).msixCtl = s.msixCtl := rfl
@[simp] theorem State.ctlCount_ranas (s : State) (o lo len : Nat) : (s.ctlCount o lo len).ranas = s.ranas := rfl
@[simp] theorem State.ctlCount_log (s : State) (o lo len : Nat) : (s.ctlCount o lo len).log = s.log := rfl
@[simp] theorem State.ctlCount_freeCtr (s : State) (o lo len : Nat) : (s.ctlCount o lo len).freeCtr = s.freeCtr := rfl
@[simp] theorem State.ctlCount_out (s : State) (o lo len : Nat) : (s.ctlCount o lo len).out = s.out := rfl

/-! ## State.barSet -/

@[simp] theorem State.barSet_pending (s : State) (o : Nat) (w : Reg32) : (s.barSet o w).pending = s.pending := rfl
@[simp] theorem State.barSet_variant (s : State) (o : Nat) (w : Reg32) : (s.barSet o w).variant = s.variant := rfl
@[simp] theorem State.barSet_cores (s : State) (o : Nat) (w : Reg32) : (s.barSet o w).cores = s.cores := rfl
@[simp] theorem State.barSet_monitor (s : State) (o : Nat) (w : Reg32) : (s.barSet o w).monitor = s.monitor := rfl
@[simp] theorem State.barSet_thirdFault (s : State) (o : Nat) (w : Reg32) : (s.barSet o w).thirdFault = s.thirdFault := rfl
@[simp] theorem State.barSet_retired (s : State) (o : Nat) (w : Reg32) : (s.barSet o w).retired = s.retired := rfl
@[simp] theorem State.barSet_mxroot (s : State) (o : Nat) (w : Reg32) : (s.barSet o w).mxroot = s.mxroot := rfl
@[simp] theorem State.barSet_mem (s : State) (o : Nat) (w : Reg32) : (s.barSet o w).mem = s.mem := rfl
@[simp] theorem State.barSet_poison (s : State) (o : Nat) (w : Reg32) : (s.barSet o w).poison = s.poison := rfl
@[simp] theorem State.barSet_lsBad (s : State) (o : Nat) (w : Reg32) : (s.barSet o w).lsBad = s.lsBad := rfl
@[simp] theorem State.barSet_ctl (s : State) (o : Nat) (w : Reg32) : (s.barSet o w).ctl = s.ctl := rfl
@[simp] theorem State.barSet_tickCount (s : State) (o : Nat) (w : Reg32) : (s.barSet o w).tickCount = s.tickCount := rfl
@[simp] theorem State.barSet_tickShadow (s : State) (o : Nat) (w : Reg32) : (s.barSet o w).tickShadow = s.tickShadow := rfl
@[simp] theorem State.barSet_tickStage (s : State) (o : Nat) (w : Reg32) : (s.barSet o w).tickStage = s.tickStage := rfl
@[simp] theorem State.barSet_syncGood (s : State) (o : Nat) (w : Reg32) : (s.barSet o w).syncGood = s.syncGood := rfl
@[simp] theorem State.barSet_syncMissed (s : State) (o : Nat) (w : Reg32) : (s.barSet o w).syncMissed = s.syncMissed := rfl
@[simp] theorem State.barSet_syncSeen (s : State) (o : Nat) (w : Reg32) : (s.barSet o w).syncSeen = s.syncSeen := rfl
@[simp] theorem State.barSet_switchKnown (s : State) (o : Nat) (w : Reg32) : (s.barSet o w).switchKnown = s.switchKnown := rfl
@[simp] theorem State.barSet_lockReady (s : State) (o : Nat) (w : Reg32) : (s.barSet o w).lockReady = s.lockReady := rfl
@[simp] theorem State.barSet_syncStepped (s : State) (o : Nat) (w : Reg32) : (s.barSet o w).syncStepped = s.syncStepped := rfl
@[simp] theorem State.barSet_syncPeriod (s : State) (o : Nat) (w : Reg32) : (s.barSet o w).syncPeriod = s.syncPeriod := rfl
@[simp] theorem State.barSet_syncMaster (s : State) (o : Nat) (w : Reg32) : (s.barSet o w).syncMaster = s.syncMaster := rfl
@[simp] theorem State.barSet_sched (s : State) (o : Nat) (w : Reg32) : (s.barSet o w).sched = s.sched := rfl
@[simp] theorem State.barSet_clockStep (s : State) (o : Nat) (w : Reg32) : (s.barSet o w).clockStep = s.clockStep := rfl
@[simp] theorem State.barSet_tcLines (s : State) (o : Nat) (w : Reg32) : (s.barSet o w).tcLines = s.tcLines := rfl
@[simp] theorem State.barSet_l1d (s : State) (o : Nat) (w : Reg32) : (s.barSet o w).l1d = s.l1d := rfl
@[simp] theorem State.barSet_l1i (s : State) (o : Nat) (w : Reg32) : (s.barSet o w).l1i = s.l1i := rfl
@[simp] theorem State.barSet_memReqs (s : State) (o : Nat) (w : Reg32) : (s.barSet o w).memReqs = s.memReqs := rfl
@[simp] theorem State.barSet_cxlSlots (s : State) (o : Nat) (w : Reg32) : (s.barSet o w).cxlSlots = s.cxlSlots := rfl
@[simp] theorem State.barSet_remoteTimeout (s : State) (o : Nat) (w : Reg32) : (s.barSet o w).remoteTimeout = s.remoteTimeout := rfl
@[simp] theorem State.barSet_cxlRanges (s : State) (o : Nat) (w : Reg32) : (s.barSet o w).cxlRanges = s.cxlRanges := rfl
@[simp] theorem State.barSet_cxlDown (s : State) (o : Nat) (w : Reg32) : (s.barSet o w).cxlDown = s.cxlDown := rfl
@[simp] theorem State.barSet_remote (s : State) (o : Nat) (w : Reg32) : (s.barSet o w).remote = s.remote := rfl
@[simp] theorem State.barSet_semHost (s : State) (o : Nat) (w : Reg32) : (s.barSet o w).semHost = s.semHost := rfl
@[simp] theorem State.barSet_semUps (s : State) (o : Nat) (w : Reg32) : (s.barSet o w).semUps = s.semUps := rfl
@[simp] theorem State.barSet_arb (s : State) (o : Nat) (w : Reg32) : (s.barSet o w).arb = s.arb := rfl
@[simp] theorem State.barSet_dma (s : State) (o : Nat) (w : Reg32) : (s.barSet o w).dma = s.dma := rfl
@[simp] theorem State.barSet_fabPorts (s : State) (o : Nat) (w : Reg32) : (s.barSet o w).fabPorts = s.fabPorts := rfl
@[simp] theorem State.barSet_fab (s : State) (o : Nat) (w : Reg32) : (s.barSet o w).fab = s.fab := rfl
@[simp] theorem State.barSet_flows (s : State) (o : Nat) (w : Reg32) : (s.barSet o w).flows = s.flows := rfl
@[simp] theorem State.barSet_eph (s : State) (o : Nat) (w : Reg32) : (s.barSet o w).eph = s.eph := rfl
@[simp] theorem State.barSet_ce (s : State) (o : Nat) (w : Reg32) : (s.barSet o w).ce = s.ce := rfl
@[simp] theorem State.barSet_msixCtl (s : State) (o : Nat) (w : Reg32) : (s.barSet o w).msixCtl = s.msixCtl := rfl
@[simp] theorem State.barSet_ranas (s : State) (o : Nat) (w : Reg32) : (s.barSet o w).ranas = s.ranas := rfl
@[simp] theorem State.barSet_log (s : State) (o : Nat) (w : Reg32) : (s.barSet o w).log = s.log := rfl
@[simp] theorem State.barSet_freeCtr (s : State) (o : Nat) (w : Reg32) : (s.barSet o w).freeCtr = s.freeCtr := rfl
@[simp] theorem State.barSet_out (s : State) (o : Nat) (w : Reg32) : (s.barSet o w).out = s.out := rfl

/-! ## State.emit -/

@[simp] theorem State.emit_pending (s : State) (e : Emit) : (s.emit e).pending = s.pending := rfl
@[simp] theorem State.emit_variant (s : State) (e : Emit) : (s.emit e).variant = s.variant := rfl
@[simp] theorem State.emit_cores (s : State) (e : Emit) : (s.emit e).cores = s.cores := rfl
@[simp] theorem State.emit_monitor (s : State) (e : Emit) : (s.emit e).monitor = s.monitor := rfl
@[simp] theorem State.emit_thirdFault (s : State) (e : Emit) : (s.emit e).thirdFault = s.thirdFault := rfl
@[simp] theorem State.emit_retired (s : State) (e : Emit) : (s.emit e).retired = s.retired := rfl
@[simp] theorem State.emit_mxroot (s : State) (e : Emit) : (s.emit e).mxroot = s.mxroot := rfl
@[simp] theorem State.emit_mem (s : State) (e : Emit) : (s.emit e).mem = s.mem := rfl
@[simp] theorem State.emit_poison (s : State) (e : Emit) : (s.emit e).poison = s.poison := rfl
@[simp] theorem State.emit_lsBad (s : State) (e : Emit) : (s.emit e).lsBad = s.lsBad := rfl
@[simp] theorem State.emit_ctl (s : State) (e : Emit) : (s.emit e).ctl = s.ctl := rfl
@[simp] theorem State.emit_tickCount (s : State) (e : Emit) : (s.emit e).tickCount = s.tickCount := rfl
@[simp] theorem State.emit_tickShadow (s : State) (e : Emit) : (s.emit e).tickShadow = s.tickShadow := rfl
@[simp] theorem State.emit_tickStage (s : State) (e : Emit) : (s.emit e).tickStage = s.tickStage := rfl
@[simp] theorem State.emit_syncGood (s : State) (e : Emit) : (s.emit e).syncGood = s.syncGood := rfl
@[simp] theorem State.emit_syncMissed (s : State) (e : Emit) : (s.emit e).syncMissed = s.syncMissed := rfl
@[simp] theorem State.emit_syncSeen (s : State) (e : Emit) : (s.emit e).syncSeen = s.syncSeen := rfl
@[simp] theorem State.emit_switchKnown (s : State) (e : Emit) : (s.emit e).switchKnown = s.switchKnown := rfl
@[simp] theorem State.emit_lockReady (s : State) (e : Emit) : (s.emit e).lockReady = s.lockReady := rfl
@[simp] theorem State.emit_syncStepped (s : State) (e : Emit) : (s.emit e).syncStepped = s.syncStepped := rfl
@[simp] theorem State.emit_syncPeriod (s : State) (e : Emit) : (s.emit e).syncPeriod = s.syncPeriod := rfl
@[simp] theorem State.emit_syncMaster (s : State) (e : Emit) : (s.emit e).syncMaster = s.syncMaster := rfl
@[simp] theorem State.emit_sched (s : State) (e : Emit) : (s.emit e).sched = s.sched := rfl
@[simp] theorem State.emit_clockStep (s : State) (e : Emit) : (s.emit e).clockStep = s.clockStep := rfl
@[simp] theorem State.emit_tcLines (s : State) (e : Emit) : (s.emit e).tcLines = s.tcLines := rfl
@[simp] theorem State.emit_l1d (s : State) (e : Emit) : (s.emit e).l1d = s.l1d := rfl
@[simp] theorem State.emit_l1i (s : State) (e : Emit) : (s.emit e).l1i = s.l1i := rfl
@[simp] theorem State.emit_memReqs (s : State) (e : Emit) : (s.emit e).memReqs = s.memReqs := rfl
@[simp] theorem State.emit_cxlSlots (s : State) (e : Emit) : (s.emit e).cxlSlots = s.cxlSlots := rfl
@[simp] theorem State.emit_remoteTimeout (s : State) (e : Emit) : (s.emit e).remoteTimeout = s.remoteTimeout := rfl
@[simp] theorem State.emit_cxlRanges (s : State) (e : Emit) : (s.emit e).cxlRanges = s.cxlRanges := rfl
@[simp] theorem State.emit_cxlDown (s : State) (e : Emit) : (s.emit e).cxlDown = s.cxlDown := rfl
@[simp] theorem State.emit_remote (s : State) (e : Emit) : (s.emit e).remote = s.remote := rfl
@[simp] theorem State.emit_semHost (s : State) (e : Emit) : (s.emit e).semHost = s.semHost := rfl
@[simp] theorem State.emit_semUps (s : State) (e : Emit) : (s.emit e).semUps = s.semUps := rfl
@[simp] theorem State.emit_arb (s : State) (e : Emit) : (s.emit e).arb = s.arb := rfl
@[simp] theorem State.emit_dma (s : State) (e : Emit) : (s.emit e).dma = s.dma := rfl
@[simp] theorem State.emit_fabPorts (s : State) (e : Emit) : (s.emit e).fabPorts = s.fabPorts := rfl
@[simp] theorem State.emit_fab (s : State) (e : Emit) : (s.emit e).fab = s.fab := rfl
@[simp] theorem State.emit_flows (s : State) (e : Emit) : (s.emit e).flows = s.flows := rfl
@[simp] theorem State.emit_eph (s : State) (e : Emit) : (s.emit e).eph = s.eph := rfl
@[simp] theorem State.emit_ce (s : State) (e : Emit) : (s.emit e).ce = s.ce := rfl
@[simp] theorem State.emit_bar0 (s : State) (e : Emit) : (s.emit e).bar0 = s.bar0 := rfl
@[simp] theorem State.emit_msixCtl (s : State) (e : Emit) : (s.emit e).msixCtl = s.msixCtl := rfl
@[simp] theorem State.emit_ranas (s : State) (e : Emit) : (s.emit e).ranas = s.ranas := rfl
@[simp] theorem State.emit_log (s : State) (e : Emit) : (s.emit e).log = s.log := rfl
@[simp] theorem State.emit_freeCtr (s : State) (e : Emit) : (s.emit e).freeCtr = s.freeCtr := rfl

/-! ## State.modMon -/

@[simp] theorem State.modMon_pending (s : State) (c : Nat) (f : Monitor → Monitor) : (s.modMon c f).pending = s.pending := rfl
@[simp] theorem State.modMon_variant (s : State) (c : Nat) (f : Monitor → Monitor) : (s.modMon c f).variant = s.variant := rfl
@[simp] theorem State.modMon_cores (s : State) (c : Nat) (f : Monitor → Monitor) : (s.modMon c f).cores = s.cores := rfl
@[simp] theorem State.modMon_thirdFault (s : State) (c : Nat) (f : Monitor → Monitor) : (s.modMon c f).thirdFault = s.thirdFault := rfl
@[simp] theorem State.modMon_retired (s : State) (c : Nat) (f : Monitor → Monitor) : (s.modMon c f).retired = s.retired := rfl
@[simp] theorem State.modMon_mxroot (s : State) (c : Nat) (f : Monitor → Monitor) : (s.modMon c f).mxroot = s.mxroot := rfl
@[simp] theorem State.modMon_mem (s : State) (c : Nat) (f : Monitor → Monitor) : (s.modMon c f).mem = s.mem := rfl
@[simp] theorem State.modMon_poison (s : State) (c : Nat) (f : Monitor → Monitor) : (s.modMon c f).poison = s.poison := rfl
@[simp] theorem State.modMon_lsBad (s : State) (c : Nat) (f : Monitor → Monitor) : (s.modMon c f).lsBad = s.lsBad := rfl
@[simp] theorem State.modMon_ctl (s : State) (c : Nat) (f : Monitor → Monitor) : (s.modMon c f).ctl = s.ctl := rfl
@[simp] theorem State.modMon_tickCount (s : State) (c : Nat) (f : Monitor → Monitor) : (s.modMon c f).tickCount = s.tickCount := rfl
@[simp] theorem State.modMon_tickShadow (s : State) (c : Nat) (f : Monitor → Monitor) : (s.modMon c f).tickShadow = s.tickShadow := rfl
@[simp] theorem State.modMon_tickStage (s : State) (c : Nat) (f : Monitor → Monitor) : (s.modMon c f).tickStage = s.tickStage := rfl
@[simp] theorem State.modMon_syncGood (s : State) (c : Nat) (f : Monitor → Monitor) : (s.modMon c f).syncGood = s.syncGood := rfl
@[simp] theorem State.modMon_syncMissed (s : State) (c : Nat) (f : Monitor → Monitor) : (s.modMon c f).syncMissed = s.syncMissed := rfl
@[simp] theorem State.modMon_syncSeen (s : State) (c : Nat) (f : Monitor → Monitor) : (s.modMon c f).syncSeen = s.syncSeen := rfl
@[simp] theorem State.modMon_switchKnown (s : State) (c : Nat) (f : Monitor → Monitor) : (s.modMon c f).switchKnown = s.switchKnown := rfl
@[simp] theorem State.modMon_lockReady (s : State) (c : Nat) (f : Monitor → Monitor) : (s.modMon c f).lockReady = s.lockReady := rfl
@[simp] theorem State.modMon_syncStepped (s : State) (c : Nat) (f : Monitor → Monitor) : (s.modMon c f).syncStepped = s.syncStepped := rfl
@[simp] theorem State.modMon_syncPeriod (s : State) (c : Nat) (f : Monitor → Monitor) : (s.modMon c f).syncPeriod = s.syncPeriod := rfl
@[simp] theorem State.modMon_syncMaster (s : State) (c : Nat) (f : Monitor → Monitor) : (s.modMon c f).syncMaster = s.syncMaster := rfl
@[simp] theorem State.modMon_sched (s : State) (c : Nat) (f : Monitor → Monitor) : (s.modMon c f).sched = s.sched := rfl
@[simp] theorem State.modMon_clockStep (s : State) (c : Nat) (f : Monitor → Monitor) : (s.modMon c f).clockStep = s.clockStep := rfl
@[simp] theorem State.modMon_tcLines (s : State) (c : Nat) (f : Monitor → Monitor) : (s.modMon c f).tcLines = s.tcLines := rfl
@[simp] theorem State.modMon_l1d (s : State) (c : Nat) (f : Monitor → Monitor) : (s.modMon c f).l1d = s.l1d := rfl
@[simp] theorem State.modMon_l1i (s : State) (c : Nat) (f : Monitor → Monitor) : (s.modMon c f).l1i = s.l1i := rfl
@[simp] theorem State.modMon_memReqs (s : State) (c : Nat) (f : Monitor → Monitor) : (s.modMon c f).memReqs = s.memReqs := rfl
@[simp] theorem State.modMon_cxlSlots (s : State) (c : Nat) (f : Monitor → Monitor) : (s.modMon c f).cxlSlots = s.cxlSlots := rfl
@[simp] theorem State.modMon_remoteTimeout (s : State) (c : Nat) (f : Monitor → Monitor) : (s.modMon c f).remoteTimeout = s.remoteTimeout := rfl
@[simp] theorem State.modMon_cxlRanges (s : State) (c : Nat) (f : Monitor → Monitor) : (s.modMon c f).cxlRanges = s.cxlRanges := rfl
@[simp] theorem State.modMon_cxlDown (s : State) (c : Nat) (f : Monitor → Monitor) : (s.modMon c f).cxlDown = s.cxlDown := rfl
@[simp] theorem State.modMon_remote (s : State) (c : Nat) (f : Monitor → Monitor) : (s.modMon c f).remote = s.remote := rfl
@[simp] theorem State.modMon_semHost (s : State) (c : Nat) (f : Monitor → Monitor) : (s.modMon c f).semHost = s.semHost := rfl
@[simp] theorem State.modMon_semUps (s : State) (c : Nat) (f : Monitor → Monitor) : (s.modMon c f).semUps = s.semUps := rfl
@[simp] theorem State.modMon_arb (s : State) (c : Nat) (f : Monitor → Monitor) : (s.modMon c f).arb = s.arb := rfl
@[simp] theorem State.modMon_dma (s : State) (c : Nat) (f : Monitor → Monitor) : (s.modMon c f).dma = s.dma := rfl
@[simp] theorem State.modMon_fabPorts (s : State) (c : Nat) (f : Monitor → Monitor) : (s.modMon c f).fabPorts = s.fabPorts := rfl
@[simp] theorem State.modMon_fab (s : State) (c : Nat) (f : Monitor → Monitor) : (s.modMon c f).fab = s.fab := rfl
@[simp] theorem State.modMon_flows (s : State) (c : Nat) (f : Monitor → Monitor) : (s.modMon c f).flows = s.flows := rfl
@[simp] theorem State.modMon_eph (s : State) (c : Nat) (f : Monitor → Monitor) : (s.modMon c f).eph = s.eph := rfl
@[simp] theorem State.modMon_ce (s : State) (c : Nat) (f : Monitor → Monitor) : (s.modMon c f).ce = s.ce := rfl
@[simp] theorem State.modMon_bar0 (s : State) (c : Nat) (f : Monitor → Monitor) : (s.modMon c f).bar0 = s.bar0 := rfl
@[simp] theorem State.modMon_msixCtl (s : State) (c : Nat) (f : Monitor → Monitor) : (s.modMon c f).msixCtl = s.msixCtl := rfl
@[simp] theorem State.modMon_ranas (s : State) (c : Nat) (f : Monitor → Monitor) : (s.modMon c f).ranas = s.ranas := rfl
@[simp] theorem State.modMon_log (s : State) (c : Nat) (f : Monitor → Monitor) : (s.modMon c f).log = s.log := rfl
@[simp] theorem State.modMon_freeCtr (s : State) (c : Nat) (f : Monitor → Monitor) : (s.modMon c f).freeCtr = s.freeCtr := rfl
@[simp] theorem State.modMon_out (s : State) (c : Nat) (f : Monitor → Monitor) : (s.modMon c f).out = s.out := rfl

/-! ## State.setArbX -/

@[simp] theorem State.setArbX_pending (s : State) (i : Nat) (x : ArbX) : (s.setArbX i x).pending = s.pending := rfl
@[simp] theorem State.setArbX_variant (s : State) (i : Nat) (x : ArbX) : (s.setArbX i x).variant = s.variant := rfl
@[simp] theorem State.setArbX_cores (s : State) (i : Nat) (x : ArbX) : (s.setArbX i x).cores = s.cores := rfl
@[simp] theorem State.setArbX_monitor (s : State) (i : Nat) (x : ArbX) : (s.setArbX i x).monitor = s.monitor := rfl
@[simp] theorem State.setArbX_thirdFault (s : State) (i : Nat) (x : ArbX) : (s.setArbX i x).thirdFault = s.thirdFault := rfl
@[simp] theorem State.setArbX_retired (s : State) (i : Nat) (x : ArbX) : (s.setArbX i x).retired = s.retired := rfl
@[simp] theorem State.setArbX_mxroot (s : State) (i : Nat) (x : ArbX) : (s.setArbX i x).mxroot = s.mxroot := rfl
@[simp] theorem State.setArbX_mem (s : State) (i : Nat) (x : ArbX) : (s.setArbX i x).mem = s.mem := rfl
@[simp] theorem State.setArbX_poison (s : State) (i : Nat) (x : ArbX) : (s.setArbX i x).poison = s.poison := rfl
@[simp] theorem State.setArbX_lsBad (s : State) (i : Nat) (x : ArbX) : (s.setArbX i x).lsBad = s.lsBad := rfl
@[simp] theorem State.setArbX_ctl (s : State) (i : Nat) (x : ArbX) : (s.setArbX i x).ctl = s.ctl := rfl
@[simp] theorem State.setArbX_tickCount (s : State) (i : Nat) (x : ArbX) : (s.setArbX i x).tickCount = s.tickCount := rfl
@[simp] theorem State.setArbX_tickShadow (s : State) (i : Nat) (x : ArbX) : (s.setArbX i x).tickShadow = s.tickShadow := rfl
@[simp] theorem State.setArbX_tickStage (s : State) (i : Nat) (x : ArbX) : (s.setArbX i x).tickStage = s.tickStage := rfl
@[simp] theorem State.setArbX_syncGood (s : State) (i : Nat) (x : ArbX) : (s.setArbX i x).syncGood = s.syncGood := rfl
@[simp] theorem State.setArbX_syncMissed (s : State) (i : Nat) (x : ArbX) : (s.setArbX i x).syncMissed = s.syncMissed := rfl
@[simp] theorem State.setArbX_syncSeen (s : State) (i : Nat) (x : ArbX) : (s.setArbX i x).syncSeen = s.syncSeen := rfl
@[simp] theorem State.setArbX_switchKnown (s : State) (i : Nat) (x : ArbX) : (s.setArbX i x).switchKnown = s.switchKnown := rfl
@[simp] theorem State.setArbX_lockReady (s : State) (i : Nat) (x : ArbX) : (s.setArbX i x).lockReady = s.lockReady := rfl
@[simp] theorem State.setArbX_syncStepped (s : State) (i : Nat) (x : ArbX) : (s.setArbX i x).syncStepped = s.syncStepped := rfl
@[simp] theorem State.setArbX_syncPeriod (s : State) (i : Nat) (x : ArbX) : (s.setArbX i x).syncPeriod = s.syncPeriod := rfl
@[simp] theorem State.setArbX_syncMaster (s : State) (i : Nat) (x : ArbX) : (s.setArbX i x).syncMaster = s.syncMaster := rfl
@[simp] theorem State.setArbX_sched (s : State) (i : Nat) (x : ArbX) : (s.setArbX i x).sched = s.sched := rfl
@[simp] theorem State.setArbX_clockStep (s : State) (i : Nat) (x : ArbX) : (s.setArbX i x).clockStep = s.clockStep := rfl
@[simp] theorem State.setArbX_tcLines (s : State) (i : Nat) (x : ArbX) : (s.setArbX i x).tcLines = s.tcLines := rfl
@[simp] theorem State.setArbX_l1d (s : State) (i : Nat) (x : ArbX) : (s.setArbX i x).l1d = s.l1d := rfl
@[simp] theorem State.setArbX_l1i (s : State) (i : Nat) (x : ArbX) : (s.setArbX i x).l1i = s.l1i := rfl
@[simp] theorem State.setArbX_memReqs (s : State) (i : Nat) (x : ArbX) : (s.setArbX i x).memReqs = s.memReqs := rfl
@[simp] theorem State.setArbX_cxlSlots (s : State) (i : Nat) (x : ArbX) : (s.setArbX i x).cxlSlots = s.cxlSlots := rfl
@[simp] theorem State.setArbX_remoteTimeout (s : State) (i : Nat) (x : ArbX) : (s.setArbX i x).remoteTimeout = s.remoteTimeout := rfl
@[simp] theorem State.setArbX_cxlRanges (s : State) (i : Nat) (x : ArbX) : (s.setArbX i x).cxlRanges = s.cxlRanges := rfl
@[simp] theorem State.setArbX_cxlDown (s : State) (i : Nat) (x : ArbX) : (s.setArbX i x).cxlDown = s.cxlDown := rfl
@[simp] theorem State.setArbX_remote (s : State) (i : Nat) (x : ArbX) : (s.setArbX i x).remote = s.remote := rfl
@[simp] theorem State.setArbX_semHost (s : State) (i : Nat) (x : ArbX) : (s.setArbX i x).semHost = s.semHost := rfl
@[simp] theorem State.setArbX_semUps (s : State) (i : Nat) (x : ArbX) : (s.setArbX i x).semUps = s.semUps := rfl
@[simp] theorem State.setArbX_dma (s : State) (i : Nat) (x : ArbX) : (s.setArbX i x).dma = s.dma := rfl
@[simp] theorem State.setArbX_fabPorts (s : State) (i : Nat) (x : ArbX) : (s.setArbX i x).fabPorts = s.fabPorts := rfl
@[simp] theorem State.setArbX_fab (s : State) (i : Nat) (x : ArbX) : (s.setArbX i x).fab = s.fab := rfl
@[simp] theorem State.setArbX_flows (s : State) (i : Nat) (x : ArbX) : (s.setArbX i x).flows = s.flows := rfl
@[simp] theorem State.setArbX_eph (s : State) (i : Nat) (x : ArbX) : (s.setArbX i x).eph = s.eph := rfl
@[simp] theorem State.setArbX_ce (s : State) (i : Nat) (x : ArbX) : (s.setArbX i x).ce = s.ce := rfl
@[simp] theorem State.setArbX_bar0 (s : State) (i : Nat) (x : ArbX) : (s.setArbX i x).bar0 = s.bar0 := rfl
@[simp] theorem State.setArbX_msixCtl (s : State) (i : Nat) (x : ArbX) : (s.setArbX i x).msixCtl = s.msixCtl := rfl
@[simp] theorem State.setArbX_ranas (s : State) (i : Nat) (x : ArbX) : (s.setArbX i x).ranas = s.ranas := rfl
@[simp] theorem State.setArbX_log (s : State) (i : Nat) (x : ArbX) : (s.setArbX i x).log = s.log := rfl
@[simp] theorem State.setArbX_freeCtr (s : State) (i : Nat) (x : ArbX) : (s.setArbX i x).freeCtr = s.freeCtr := rfl
@[simp] theorem State.setArbX_out (s : State) (i : Nat) (x : ArbX) : (s.setArbX i x).out = s.out := rfl

/-! ## State.setDmaX -/

@[simp] theorem State.setDmaX_pending (s : State) (q : Nat) (x : DmaX) : (s.setDmaX q x).pending = s.pending := rfl
@[simp] theorem State.setDmaX_variant (s : State) (q : Nat) (x : DmaX) : (s.setDmaX q x).variant = s.variant := rfl
@[simp] theorem State.setDmaX_cores (s : State) (q : Nat) (x : DmaX) : (s.setDmaX q x).cores = s.cores := rfl
@[simp] theorem State.setDmaX_monitor (s : State) (q : Nat) (x : DmaX) : (s.setDmaX q x).monitor = s.monitor := rfl
@[simp] theorem State.setDmaX_thirdFault (s : State) (q : Nat) (x : DmaX) : (s.setDmaX q x).thirdFault = s.thirdFault := rfl
@[simp] theorem State.setDmaX_retired (s : State) (q : Nat) (x : DmaX) : (s.setDmaX q x).retired = s.retired := rfl
@[simp] theorem State.setDmaX_mxroot (s : State) (q : Nat) (x : DmaX) : (s.setDmaX q x).mxroot = s.mxroot := rfl
@[simp] theorem State.setDmaX_mem (s : State) (q : Nat) (x : DmaX) : (s.setDmaX q x).mem = s.mem := rfl
@[simp] theorem State.setDmaX_poison (s : State) (q : Nat) (x : DmaX) : (s.setDmaX q x).poison = s.poison := rfl
@[simp] theorem State.setDmaX_lsBad (s : State) (q : Nat) (x : DmaX) : (s.setDmaX q x).lsBad = s.lsBad := rfl
@[simp] theorem State.setDmaX_ctl (s : State) (q : Nat) (x : DmaX) : (s.setDmaX q x).ctl = s.ctl := rfl
@[simp] theorem State.setDmaX_tickCount (s : State) (q : Nat) (x : DmaX) : (s.setDmaX q x).tickCount = s.tickCount := rfl
@[simp] theorem State.setDmaX_tickShadow (s : State) (q : Nat) (x : DmaX) : (s.setDmaX q x).tickShadow = s.tickShadow := rfl
@[simp] theorem State.setDmaX_tickStage (s : State) (q : Nat) (x : DmaX) : (s.setDmaX q x).tickStage = s.tickStage := rfl
@[simp] theorem State.setDmaX_syncGood (s : State) (q : Nat) (x : DmaX) : (s.setDmaX q x).syncGood = s.syncGood := rfl
@[simp] theorem State.setDmaX_syncMissed (s : State) (q : Nat) (x : DmaX) : (s.setDmaX q x).syncMissed = s.syncMissed := rfl
@[simp] theorem State.setDmaX_syncSeen (s : State) (q : Nat) (x : DmaX) : (s.setDmaX q x).syncSeen = s.syncSeen := rfl
@[simp] theorem State.setDmaX_switchKnown (s : State) (q : Nat) (x : DmaX) : (s.setDmaX q x).switchKnown = s.switchKnown := rfl
@[simp] theorem State.setDmaX_lockReady (s : State) (q : Nat) (x : DmaX) : (s.setDmaX q x).lockReady = s.lockReady := rfl
@[simp] theorem State.setDmaX_syncStepped (s : State) (q : Nat) (x : DmaX) : (s.setDmaX q x).syncStepped = s.syncStepped := rfl
@[simp] theorem State.setDmaX_syncPeriod (s : State) (q : Nat) (x : DmaX) : (s.setDmaX q x).syncPeriod = s.syncPeriod := rfl
@[simp] theorem State.setDmaX_syncMaster (s : State) (q : Nat) (x : DmaX) : (s.setDmaX q x).syncMaster = s.syncMaster := rfl
@[simp] theorem State.setDmaX_sched (s : State) (q : Nat) (x : DmaX) : (s.setDmaX q x).sched = s.sched := rfl
@[simp] theorem State.setDmaX_clockStep (s : State) (q : Nat) (x : DmaX) : (s.setDmaX q x).clockStep = s.clockStep := rfl
@[simp] theorem State.setDmaX_tcLines (s : State) (q : Nat) (x : DmaX) : (s.setDmaX q x).tcLines = s.tcLines := rfl
@[simp] theorem State.setDmaX_l1d (s : State) (q : Nat) (x : DmaX) : (s.setDmaX q x).l1d = s.l1d := rfl
@[simp] theorem State.setDmaX_l1i (s : State) (q : Nat) (x : DmaX) : (s.setDmaX q x).l1i = s.l1i := rfl
@[simp] theorem State.setDmaX_memReqs (s : State) (q : Nat) (x : DmaX) : (s.setDmaX q x).memReqs = s.memReqs := rfl
@[simp] theorem State.setDmaX_cxlSlots (s : State) (q : Nat) (x : DmaX) : (s.setDmaX q x).cxlSlots = s.cxlSlots := rfl
@[simp] theorem State.setDmaX_remoteTimeout (s : State) (q : Nat) (x : DmaX) : (s.setDmaX q x).remoteTimeout = s.remoteTimeout := rfl
@[simp] theorem State.setDmaX_cxlRanges (s : State) (q : Nat) (x : DmaX) : (s.setDmaX q x).cxlRanges = s.cxlRanges := rfl
@[simp] theorem State.setDmaX_cxlDown (s : State) (q : Nat) (x : DmaX) : (s.setDmaX q x).cxlDown = s.cxlDown := rfl
@[simp] theorem State.setDmaX_remote (s : State) (q : Nat) (x : DmaX) : (s.setDmaX q x).remote = s.remote := rfl
@[simp] theorem State.setDmaX_semHost (s : State) (q : Nat) (x : DmaX) : (s.setDmaX q x).semHost = s.semHost := rfl
@[simp] theorem State.setDmaX_semUps (s : State) (q : Nat) (x : DmaX) : (s.setDmaX q x).semUps = s.semUps := rfl
@[simp] theorem State.setDmaX_arb (s : State) (q : Nat) (x : DmaX) : (s.setDmaX q x).arb = s.arb := rfl
@[simp] theorem State.setDmaX_fabPorts (s : State) (q : Nat) (x : DmaX) : (s.setDmaX q x).fabPorts = s.fabPorts := rfl
@[simp] theorem State.setDmaX_fab (s : State) (q : Nat) (x : DmaX) : (s.setDmaX q x).fab = s.fab := rfl
@[simp] theorem State.setDmaX_flows (s : State) (q : Nat) (x : DmaX) : (s.setDmaX q x).flows = s.flows := rfl
@[simp] theorem State.setDmaX_eph (s : State) (q : Nat) (x : DmaX) : (s.setDmaX q x).eph = s.eph := rfl
@[simp] theorem State.setDmaX_ce (s : State) (q : Nat) (x : DmaX) : (s.setDmaX q x).ce = s.ce := rfl
@[simp] theorem State.setDmaX_bar0 (s : State) (q : Nat) (x : DmaX) : (s.setDmaX q x).bar0 = s.bar0 := rfl
@[simp] theorem State.setDmaX_msixCtl (s : State) (q : Nat) (x : DmaX) : (s.setDmaX q x).msixCtl = s.msixCtl := rfl
@[simp] theorem State.setDmaX_ranas (s : State) (q : Nat) (x : DmaX) : (s.setDmaX q x).ranas = s.ranas := rfl
@[simp] theorem State.setDmaX_log (s : State) (q : Nat) (x : DmaX) : (s.setDmaX q x).log = s.log := rfl
@[simp] theorem State.setDmaX_freeCtr (s : State) (q : Nat) (x : DmaX) : (s.setDmaX q x).freeCtr = s.freeCtr := rfl
@[simp] theorem State.setDmaX_out (s : State) (q : Nat) (x : DmaX) : (s.setDmaX q x).out = s.out := rfl

/-! ## State.modDmaX -/

@[simp] theorem State.modDmaX_pending (s : State) (q : Nat) (f : DmaX → DmaX) : (s.modDmaX q f).pending = s.pending := rfl
@[simp] theorem State.modDmaX_variant (s : State) (q : Nat) (f : DmaX → DmaX) : (s.modDmaX q f).variant = s.variant := rfl
@[simp] theorem State.modDmaX_cores (s : State) (q : Nat) (f : DmaX → DmaX) : (s.modDmaX q f).cores = s.cores := rfl
@[simp] theorem State.modDmaX_monitor (s : State) (q : Nat) (f : DmaX → DmaX) : (s.modDmaX q f).monitor = s.monitor := rfl
@[simp] theorem State.modDmaX_thirdFault (s : State) (q : Nat) (f : DmaX → DmaX) : (s.modDmaX q f).thirdFault = s.thirdFault := rfl
@[simp] theorem State.modDmaX_retired (s : State) (q : Nat) (f : DmaX → DmaX) : (s.modDmaX q f).retired = s.retired := rfl
@[simp] theorem State.modDmaX_mxroot (s : State) (q : Nat) (f : DmaX → DmaX) : (s.modDmaX q f).mxroot = s.mxroot := rfl
@[simp] theorem State.modDmaX_mem (s : State) (q : Nat) (f : DmaX → DmaX) : (s.modDmaX q f).mem = s.mem := rfl
@[simp] theorem State.modDmaX_poison (s : State) (q : Nat) (f : DmaX → DmaX) : (s.modDmaX q f).poison = s.poison := rfl
@[simp] theorem State.modDmaX_lsBad (s : State) (q : Nat) (f : DmaX → DmaX) : (s.modDmaX q f).lsBad = s.lsBad := rfl
@[simp] theorem State.modDmaX_ctl (s : State) (q : Nat) (f : DmaX → DmaX) : (s.modDmaX q f).ctl = s.ctl := rfl
@[simp] theorem State.modDmaX_tickCount (s : State) (q : Nat) (f : DmaX → DmaX) : (s.modDmaX q f).tickCount = s.tickCount := rfl
@[simp] theorem State.modDmaX_tickShadow (s : State) (q : Nat) (f : DmaX → DmaX) : (s.modDmaX q f).tickShadow = s.tickShadow := rfl
@[simp] theorem State.modDmaX_tickStage (s : State) (q : Nat) (f : DmaX → DmaX) : (s.modDmaX q f).tickStage = s.tickStage := rfl
@[simp] theorem State.modDmaX_syncGood (s : State) (q : Nat) (f : DmaX → DmaX) : (s.modDmaX q f).syncGood = s.syncGood := rfl
@[simp] theorem State.modDmaX_syncMissed (s : State) (q : Nat) (f : DmaX → DmaX) : (s.modDmaX q f).syncMissed = s.syncMissed := rfl
@[simp] theorem State.modDmaX_syncSeen (s : State) (q : Nat) (f : DmaX → DmaX) : (s.modDmaX q f).syncSeen = s.syncSeen := rfl
@[simp] theorem State.modDmaX_switchKnown (s : State) (q : Nat) (f : DmaX → DmaX) : (s.modDmaX q f).switchKnown = s.switchKnown := rfl
@[simp] theorem State.modDmaX_lockReady (s : State) (q : Nat) (f : DmaX → DmaX) : (s.modDmaX q f).lockReady = s.lockReady := rfl
@[simp] theorem State.modDmaX_syncStepped (s : State) (q : Nat) (f : DmaX → DmaX) : (s.modDmaX q f).syncStepped = s.syncStepped := rfl
@[simp] theorem State.modDmaX_syncPeriod (s : State) (q : Nat) (f : DmaX → DmaX) : (s.modDmaX q f).syncPeriod = s.syncPeriod := rfl
@[simp] theorem State.modDmaX_syncMaster (s : State) (q : Nat) (f : DmaX → DmaX) : (s.modDmaX q f).syncMaster = s.syncMaster := rfl
@[simp] theorem State.modDmaX_sched (s : State) (q : Nat) (f : DmaX → DmaX) : (s.modDmaX q f).sched = s.sched := rfl
@[simp] theorem State.modDmaX_clockStep (s : State) (q : Nat) (f : DmaX → DmaX) : (s.modDmaX q f).clockStep = s.clockStep := rfl
@[simp] theorem State.modDmaX_tcLines (s : State) (q : Nat) (f : DmaX → DmaX) : (s.modDmaX q f).tcLines = s.tcLines := rfl
@[simp] theorem State.modDmaX_l1d (s : State) (q : Nat) (f : DmaX → DmaX) : (s.modDmaX q f).l1d = s.l1d := rfl
@[simp] theorem State.modDmaX_l1i (s : State) (q : Nat) (f : DmaX → DmaX) : (s.modDmaX q f).l1i = s.l1i := rfl
@[simp] theorem State.modDmaX_memReqs (s : State) (q : Nat) (f : DmaX → DmaX) : (s.modDmaX q f).memReqs = s.memReqs := rfl
@[simp] theorem State.modDmaX_cxlSlots (s : State) (q : Nat) (f : DmaX → DmaX) : (s.modDmaX q f).cxlSlots = s.cxlSlots := rfl
@[simp] theorem State.modDmaX_remoteTimeout (s : State) (q : Nat) (f : DmaX → DmaX) : (s.modDmaX q f).remoteTimeout = s.remoteTimeout := rfl
@[simp] theorem State.modDmaX_cxlRanges (s : State) (q : Nat) (f : DmaX → DmaX) : (s.modDmaX q f).cxlRanges = s.cxlRanges := rfl
@[simp] theorem State.modDmaX_cxlDown (s : State) (q : Nat) (f : DmaX → DmaX) : (s.modDmaX q f).cxlDown = s.cxlDown := rfl
@[simp] theorem State.modDmaX_remote (s : State) (q : Nat) (f : DmaX → DmaX) : (s.modDmaX q f).remote = s.remote := rfl
@[simp] theorem State.modDmaX_semHost (s : State) (q : Nat) (f : DmaX → DmaX) : (s.modDmaX q f).semHost = s.semHost := rfl
@[simp] theorem State.modDmaX_semUps (s : State) (q : Nat) (f : DmaX → DmaX) : (s.modDmaX q f).semUps = s.semUps := rfl
@[simp] theorem State.modDmaX_arb (s : State) (q : Nat) (f : DmaX → DmaX) : (s.modDmaX q f).arb = s.arb := rfl
@[simp] theorem State.modDmaX_fabPorts (s : State) (q : Nat) (f : DmaX → DmaX) : (s.modDmaX q f).fabPorts = s.fabPorts := rfl
@[simp] theorem State.modDmaX_fab (s : State) (q : Nat) (f : DmaX → DmaX) : (s.modDmaX q f).fab = s.fab := rfl
@[simp] theorem State.modDmaX_flows (s : State) (q : Nat) (f : DmaX → DmaX) : (s.modDmaX q f).flows = s.flows := rfl
@[simp] theorem State.modDmaX_eph (s : State) (q : Nat) (f : DmaX → DmaX) : (s.modDmaX q f).eph = s.eph := rfl
@[simp] theorem State.modDmaX_ce (s : State) (q : Nat) (f : DmaX → DmaX) : (s.modDmaX q f).ce = s.ce := rfl
@[simp] theorem State.modDmaX_bar0 (s : State) (q : Nat) (f : DmaX → DmaX) : (s.modDmaX q f).bar0 = s.bar0 := rfl
@[simp] theorem State.modDmaX_msixCtl (s : State) (q : Nat) (f : DmaX → DmaX) : (s.modDmaX q f).msixCtl = s.msixCtl := rfl
@[simp] theorem State.modDmaX_ranas (s : State) (q : Nat) (f : DmaX → DmaX) : (s.modDmaX q f).ranas = s.ranas := rfl
@[simp] theorem State.modDmaX_log (s : State) (q : Nat) (f : DmaX → DmaX) : (s.modDmaX q f).log = s.log := rfl
@[simp] theorem State.modDmaX_freeCtr (s : State) (q : Nat) (f : DmaX → DmaX) : (s.modDmaX q f).freeCtr = s.freeCtr := rfl
@[simp] theorem State.modDmaX_out (s : State) (q : Nat) (f : DmaX → DmaX) : (s.modDmaX q f).out = s.out := rfl

/-! ## State.modFlowX -/

@[simp] theorem State.modFlowX_pending (s : State) (f : Nat) (g : FlowX → FlowX) : (s.modFlowX f g).pending = s.pending := rfl
@[simp] theorem State.modFlowX_variant (s : State) (f : Nat) (g : FlowX → FlowX) : (s.modFlowX f g).variant = s.variant := rfl
@[simp] theorem State.modFlowX_cores (s : State) (f : Nat) (g : FlowX → FlowX) : (s.modFlowX f g).cores = s.cores := rfl
@[simp] theorem State.modFlowX_monitor (s : State) (f : Nat) (g : FlowX → FlowX) : (s.modFlowX f g).monitor = s.monitor := rfl
@[simp] theorem State.modFlowX_thirdFault (s : State) (f : Nat) (g : FlowX → FlowX) : (s.modFlowX f g).thirdFault = s.thirdFault := rfl
@[simp] theorem State.modFlowX_retired (s : State) (f : Nat) (g : FlowX → FlowX) : (s.modFlowX f g).retired = s.retired := rfl
@[simp] theorem State.modFlowX_mxroot (s : State) (f : Nat) (g : FlowX → FlowX) : (s.modFlowX f g).mxroot = s.mxroot := rfl
@[simp] theorem State.modFlowX_mem (s : State) (f : Nat) (g : FlowX → FlowX) : (s.modFlowX f g).mem = s.mem := rfl
@[simp] theorem State.modFlowX_poison (s : State) (f : Nat) (g : FlowX → FlowX) : (s.modFlowX f g).poison = s.poison := rfl
@[simp] theorem State.modFlowX_lsBad (s : State) (f : Nat) (g : FlowX → FlowX) : (s.modFlowX f g).lsBad = s.lsBad := rfl
@[simp] theorem State.modFlowX_ctl (s : State) (f : Nat) (g : FlowX → FlowX) : (s.modFlowX f g).ctl = s.ctl := rfl
@[simp] theorem State.modFlowX_tickCount (s : State) (f : Nat) (g : FlowX → FlowX) : (s.modFlowX f g).tickCount = s.tickCount := rfl
@[simp] theorem State.modFlowX_tickShadow (s : State) (f : Nat) (g : FlowX → FlowX) : (s.modFlowX f g).tickShadow = s.tickShadow := rfl
@[simp] theorem State.modFlowX_tickStage (s : State) (f : Nat) (g : FlowX → FlowX) : (s.modFlowX f g).tickStage = s.tickStage := rfl
@[simp] theorem State.modFlowX_syncGood (s : State) (f : Nat) (g : FlowX → FlowX) : (s.modFlowX f g).syncGood = s.syncGood := rfl
@[simp] theorem State.modFlowX_syncMissed (s : State) (f : Nat) (g : FlowX → FlowX) : (s.modFlowX f g).syncMissed = s.syncMissed := rfl
@[simp] theorem State.modFlowX_syncSeen (s : State) (f : Nat) (g : FlowX → FlowX) : (s.modFlowX f g).syncSeen = s.syncSeen := rfl
@[simp] theorem State.modFlowX_switchKnown (s : State) (f : Nat) (g : FlowX → FlowX) : (s.modFlowX f g).switchKnown = s.switchKnown := rfl
@[simp] theorem State.modFlowX_lockReady (s : State) (f : Nat) (g : FlowX → FlowX) : (s.modFlowX f g).lockReady = s.lockReady := rfl
@[simp] theorem State.modFlowX_syncStepped (s : State) (f : Nat) (g : FlowX → FlowX) : (s.modFlowX f g).syncStepped = s.syncStepped := rfl
@[simp] theorem State.modFlowX_syncPeriod (s : State) (f : Nat) (g : FlowX → FlowX) : (s.modFlowX f g).syncPeriod = s.syncPeriod := rfl
@[simp] theorem State.modFlowX_syncMaster (s : State) (f : Nat) (g : FlowX → FlowX) : (s.modFlowX f g).syncMaster = s.syncMaster := rfl
@[simp] theorem State.modFlowX_sched (s : State) (f : Nat) (g : FlowX → FlowX) : (s.modFlowX f g).sched = s.sched := rfl
@[simp] theorem State.modFlowX_clockStep (s : State) (f : Nat) (g : FlowX → FlowX) : (s.modFlowX f g).clockStep = s.clockStep := rfl
@[simp] theorem State.modFlowX_tcLines (s : State) (f : Nat) (g : FlowX → FlowX) : (s.modFlowX f g).tcLines = s.tcLines := rfl
@[simp] theorem State.modFlowX_l1d (s : State) (f : Nat) (g : FlowX → FlowX) : (s.modFlowX f g).l1d = s.l1d := rfl
@[simp] theorem State.modFlowX_l1i (s : State) (f : Nat) (g : FlowX → FlowX) : (s.modFlowX f g).l1i = s.l1i := rfl
@[simp] theorem State.modFlowX_memReqs (s : State) (f : Nat) (g : FlowX → FlowX) : (s.modFlowX f g).memReqs = s.memReqs := rfl
@[simp] theorem State.modFlowX_cxlSlots (s : State) (f : Nat) (g : FlowX → FlowX) : (s.modFlowX f g).cxlSlots = s.cxlSlots := rfl
@[simp] theorem State.modFlowX_remoteTimeout (s : State) (f : Nat) (g : FlowX → FlowX) : (s.modFlowX f g).remoteTimeout = s.remoteTimeout := rfl
@[simp] theorem State.modFlowX_cxlRanges (s : State) (f : Nat) (g : FlowX → FlowX) : (s.modFlowX f g).cxlRanges = s.cxlRanges := rfl
@[simp] theorem State.modFlowX_cxlDown (s : State) (f : Nat) (g : FlowX → FlowX) : (s.modFlowX f g).cxlDown = s.cxlDown := rfl
@[simp] theorem State.modFlowX_remote (s : State) (f : Nat) (g : FlowX → FlowX) : (s.modFlowX f g).remote = s.remote := rfl
@[simp] theorem State.modFlowX_semHost (s : State) (f : Nat) (g : FlowX → FlowX) : (s.modFlowX f g).semHost = s.semHost := rfl
@[simp] theorem State.modFlowX_semUps (s : State) (f : Nat) (g : FlowX → FlowX) : (s.modFlowX f g).semUps = s.semUps := rfl
@[simp] theorem State.modFlowX_arb (s : State) (f : Nat) (g : FlowX → FlowX) : (s.modFlowX f g).arb = s.arb := rfl
@[simp] theorem State.modFlowX_dma (s : State) (f : Nat) (g : FlowX → FlowX) : (s.modFlowX f g).dma = s.dma := rfl
@[simp] theorem State.modFlowX_fabPorts (s : State) (f : Nat) (g : FlowX → FlowX) : (s.modFlowX f g).fabPorts = s.fabPorts := rfl
@[simp] theorem State.modFlowX_fab (s : State) (f : Nat) (g : FlowX → FlowX) : (s.modFlowX f g).fab = s.fab := rfl
@[simp] theorem State.modFlowX_eph (s : State) (f : Nat) (g : FlowX → FlowX) : (s.modFlowX f g).eph = s.eph := rfl
@[simp] theorem State.modFlowX_ce (s : State) (f : Nat) (g : FlowX → FlowX) : (s.modFlowX f g).ce = s.ce := rfl
@[simp] theorem State.modFlowX_bar0 (s : State) (f : Nat) (g : FlowX → FlowX) : (s.modFlowX f g).bar0 = s.bar0 := rfl
@[simp] theorem State.modFlowX_msixCtl (s : State) (f : Nat) (g : FlowX → FlowX) : (s.modFlowX f g).msixCtl = s.msixCtl := rfl
@[simp] theorem State.modFlowX_ranas (s : State) (f : Nat) (g : FlowX → FlowX) : (s.modFlowX f g).ranas = s.ranas := rfl
@[simp] theorem State.modFlowX_log (s : State) (f : Nat) (g : FlowX → FlowX) : (s.modFlowX f g).log = s.log := rfl
@[simp] theorem State.modFlowX_freeCtr (s : State) (f : Nat) (g : FlowX → FlowX) : (s.modFlowX f g).freeCtr = s.freeCtr := rfl
@[simp] theorem State.modFlowX_out (s : State) (f : Nat) (g : FlowX → FlowX) : (s.modFlowX f g).out = s.out := rfl

/-! ## State.modPortX -/

@[simp] theorem State.modPortX_pending (s : State) (p : Nat) (f : FabPortX → FabPortX) : (s.modPortX p f).pending = s.pending := rfl
@[simp] theorem State.modPortX_variant (s : State) (p : Nat) (f : FabPortX → FabPortX) : (s.modPortX p f).variant = s.variant := rfl
@[simp] theorem State.modPortX_cores (s : State) (p : Nat) (f : FabPortX → FabPortX) : (s.modPortX p f).cores = s.cores := rfl
@[simp] theorem State.modPortX_monitor (s : State) (p : Nat) (f : FabPortX → FabPortX) : (s.modPortX p f).monitor = s.monitor := rfl
@[simp] theorem State.modPortX_thirdFault (s : State) (p : Nat) (f : FabPortX → FabPortX) : (s.modPortX p f).thirdFault = s.thirdFault := rfl
@[simp] theorem State.modPortX_retired (s : State) (p : Nat) (f : FabPortX → FabPortX) : (s.modPortX p f).retired = s.retired := rfl
@[simp] theorem State.modPortX_mxroot (s : State) (p : Nat) (f : FabPortX → FabPortX) : (s.modPortX p f).mxroot = s.mxroot := rfl
@[simp] theorem State.modPortX_mem (s : State) (p : Nat) (f : FabPortX → FabPortX) : (s.modPortX p f).mem = s.mem := rfl
@[simp] theorem State.modPortX_poison (s : State) (p : Nat) (f : FabPortX → FabPortX) : (s.modPortX p f).poison = s.poison := rfl
@[simp] theorem State.modPortX_lsBad (s : State) (p : Nat) (f : FabPortX → FabPortX) : (s.modPortX p f).lsBad = s.lsBad := rfl
@[simp] theorem State.modPortX_ctl (s : State) (p : Nat) (f : FabPortX → FabPortX) : (s.modPortX p f).ctl = s.ctl := rfl
@[simp] theorem State.modPortX_tickCount (s : State) (p : Nat) (f : FabPortX → FabPortX) : (s.modPortX p f).tickCount = s.tickCount := rfl
@[simp] theorem State.modPortX_tickShadow (s : State) (p : Nat) (f : FabPortX → FabPortX) : (s.modPortX p f).tickShadow = s.tickShadow := rfl
@[simp] theorem State.modPortX_tickStage (s : State) (p : Nat) (f : FabPortX → FabPortX) : (s.modPortX p f).tickStage = s.tickStage := rfl
@[simp] theorem State.modPortX_syncGood (s : State) (p : Nat) (f : FabPortX → FabPortX) : (s.modPortX p f).syncGood = s.syncGood := rfl
@[simp] theorem State.modPortX_syncMissed (s : State) (p : Nat) (f : FabPortX → FabPortX) : (s.modPortX p f).syncMissed = s.syncMissed := rfl
@[simp] theorem State.modPortX_syncSeen (s : State) (p : Nat) (f : FabPortX → FabPortX) : (s.modPortX p f).syncSeen = s.syncSeen := rfl
@[simp] theorem State.modPortX_switchKnown (s : State) (p : Nat) (f : FabPortX → FabPortX) : (s.modPortX p f).switchKnown = s.switchKnown := rfl
@[simp] theorem State.modPortX_lockReady (s : State) (p : Nat) (f : FabPortX → FabPortX) : (s.modPortX p f).lockReady = s.lockReady := rfl
@[simp] theorem State.modPortX_syncStepped (s : State) (p : Nat) (f : FabPortX → FabPortX) : (s.modPortX p f).syncStepped = s.syncStepped := rfl
@[simp] theorem State.modPortX_syncPeriod (s : State) (p : Nat) (f : FabPortX → FabPortX) : (s.modPortX p f).syncPeriod = s.syncPeriod := rfl
@[simp] theorem State.modPortX_syncMaster (s : State) (p : Nat) (f : FabPortX → FabPortX) : (s.modPortX p f).syncMaster = s.syncMaster := rfl
@[simp] theorem State.modPortX_sched (s : State) (p : Nat) (f : FabPortX → FabPortX) : (s.modPortX p f).sched = s.sched := rfl
@[simp] theorem State.modPortX_clockStep (s : State) (p : Nat) (f : FabPortX → FabPortX) : (s.modPortX p f).clockStep = s.clockStep := rfl
@[simp] theorem State.modPortX_tcLines (s : State) (p : Nat) (f : FabPortX → FabPortX) : (s.modPortX p f).tcLines = s.tcLines := rfl
@[simp] theorem State.modPortX_l1d (s : State) (p : Nat) (f : FabPortX → FabPortX) : (s.modPortX p f).l1d = s.l1d := rfl
@[simp] theorem State.modPortX_l1i (s : State) (p : Nat) (f : FabPortX → FabPortX) : (s.modPortX p f).l1i = s.l1i := rfl
@[simp] theorem State.modPortX_memReqs (s : State) (p : Nat) (f : FabPortX → FabPortX) : (s.modPortX p f).memReqs = s.memReqs := rfl
@[simp] theorem State.modPortX_cxlSlots (s : State) (p : Nat) (f : FabPortX → FabPortX) : (s.modPortX p f).cxlSlots = s.cxlSlots := rfl
@[simp] theorem State.modPortX_remoteTimeout (s : State) (p : Nat) (f : FabPortX → FabPortX) : (s.modPortX p f).remoteTimeout = s.remoteTimeout := rfl
@[simp] theorem State.modPortX_cxlRanges (s : State) (p : Nat) (f : FabPortX → FabPortX) : (s.modPortX p f).cxlRanges = s.cxlRanges := rfl
@[simp] theorem State.modPortX_cxlDown (s : State) (p : Nat) (f : FabPortX → FabPortX) : (s.modPortX p f).cxlDown = s.cxlDown := rfl
@[simp] theorem State.modPortX_remote (s : State) (p : Nat) (f : FabPortX → FabPortX) : (s.modPortX p f).remote = s.remote := rfl
@[simp] theorem State.modPortX_semHost (s : State) (p : Nat) (f : FabPortX → FabPortX) : (s.modPortX p f).semHost = s.semHost := rfl
@[simp] theorem State.modPortX_semUps (s : State) (p : Nat) (f : FabPortX → FabPortX) : (s.modPortX p f).semUps = s.semUps := rfl
@[simp] theorem State.modPortX_arb (s : State) (p : Nat) (f : FabPortX → FabPortX) : (s.modPortX p f).arb = s.arb := rfl
@[simp] theorem State.modPortX_dma (s : State) (p : Nat) (f : FabPortX → FabPortX) : (s.modPortX p f).dma = s.dma := rfl
@[simp] theorem State.modPortX_fab (s : State) (p : Nat) (f : FabPortX → FabPortX) : (s.modPortX p f).fab = s.fab := rfl
@[simp] theorem State.modPortX_flows (s : State) (p : Nat) (f : FabPortX → FabPortX) : (s.modPortX p f).flows = s.flows := rfl
@[simp] theorem State.modPortX_eph (s : State) (p : Nat) (f : FabPortX → FabPortX) : (s.modPortX p f).eph = s.eph := rfl
@[simp] theorem State.modPortX_ce (s : State) (p : Nat) (f : FabPortX → FabPortX) : (s.modPortX p f).ce = s.ce := rfl
@[simp] theorem State.modPortX_bar0 (s : State) (p : Nat) (f : FabPortX → FabPortX) : (s.modPortX p f).bar0 = s.bar0 := rfl
@[simp] theorem State.modPortX_msixCtl (s : State) (p : Nat) (f : FabPortX → FabPortX) : (s.modPortX p f).msixCtl = s.msixCtl := rfl
@[simp] theorem State.modPortX_ranas (s : State) (p : Nat) (f : FabPortX → FabPortX) : (s.modPortX p f).ranas = s.ranas := rfl
@[simp] theorem State.modPortX_log (s : State) (p : Nat) (f : FabPortX → FabPortX) : (s.modPortX p f).log = s.log := rfl
@[simp] theorem State.modPortX_freeCtr (s : State) (p : Nat) (f : FabPortX → FabPortX) : (s.modPortX p f).freeCtr = s.freeCtr := rfl
@[simp] theorem State.modPortX_out (s : State) (p : Nat) (f : FabPortX → FabPortX) : (s.modPortX p f).out = s.out := rfl

/-! ## State.modCe -/

@[simp] theorem State.modCe_pending (s : State) (f : CeX → CeX) : (s.modCe f).pending = s.pending := rfl
@[simp] theorem State.modCe_variant (s : State) (f : CeX → CeX) : (s.modCe f).variant = s.variant := rfl
@[simp] theorem State.modCe_cores (s : State) (f : CeX → CeX) : (s.modCe f).cores = s.cores := rfl
@[simp] theorem State.modCe_monitor (s : State) (f : CeX → CeX) : (s.modCe f).monitor = s.monitor := rfl
@[simp] theorem State.modCe_thirdFault (s : State) (f : CeX → CeX) : (s.modCe f).thirdFault = s.thirdFault := rfl
@[simp] theorem State.modCe_retired (s : State) (f : CeX → CeX) : (s.modCe f).retired = s.retired := rfl
@[simp] theorem State.modCe_mxroot (s : State) (f : CeX → CeX) : (s.modCe f).mxroot = s.mxroot := rfl
@[simp] theorem State.modCe_mem (s : State) (f : CeX → CeX) : (s.modCe f).mem = s.mem := rfl
@[simp] theorem State.modCe_poison (s : State) (f : CeX → CeX) : (s.modCe f).poison = s.poison := rfl
@[simp] theorem State.modCe_lsBad (s : State) (f : CeX → CeX) : (s.modCe f).lsBad = s.lsBad := rfl
@[simp] theorem State.modCe_ctl (s : State) (f : CeX → CeX) : (s.modCe f).ctl = s.ctl := rfl
@[simp] theorem State.modCe_tickCount (s : State) (f : CeX → CeX) : (s.modCe f).tickCount = s.tickCount := rfl
@[simp] theorem State.modCe_tickShadow (s : State) (f : CeX → CeX) : (s.modCe f).tickShadow = s.tickShadow := rfl
@[simp] theorem State.modCe_tickStage (s : State) (f : CeX → CeX) : (s.modCe f).tickStage = s.tickStage := rfl
@[simp] theorem State.modCe_syncGood (s : State) (f : CeX → CeX) : (s.modCe f).syncGood = s.syncGood := rfl
@[simp] theorem State.modCe_syncMissed (s : State) (f : CeX → CeX) : (s.modCe f).syncMissed = s.syncMissed := rfl
@[simp] theorem State.modCe_syncSeen (s : State) (f : CeX → CeX) : (s.modCe f).syncSeen = s.syncSeen := rfl
@[simp] theorem State.modCe_switchKnown (s : State) (f : CeX → CeX) : (s.modCe f).switchKnown = s.switchKnown := rfl
@[simp] theorem State.modCe_lockReady (s : State) (f : CeX → CeX) : (s.modCe f).lockReady = s.lockReady := rfl
@[simp] theorem State.modCe_syncStepped (s : State) (f : CeX → CeX) : (s.modCe f).syncStepped = s.syncStepped := rfl
@[simp] theorem State.modCe_syncPeriod (s : State) (f : CeX → CeX) : (s.modCe f).syncPeriod = s.syncPeriod := rfl
@[simp] theorem State.modCe_syncMaster (s : State) (f : CeX → CeX) : (s.modCe f).syncMaster = s.syncMaster := rfl
@[simp] theorem State.modCe_sched (s : State) (f : CeX → CeX) : (s.modCe f).sched = s.sched := rfl
@[simp] theorem State.modCe_clockStep (s : State) (f : CeX → CeX) : (s.modCe f).clockStep = s.clockStep := rfl
@[simp] theorem State.modCe_tcLines (s : State) (f : CeX → CeX) : (s.modCe f).tcLines = s.tcLines := rfl
@[simp] theorem State.modCe_l1d (s : State) (f : CeX → CeX) : (s.modCe f).l1d = s.l1d := rfl
@[simp] theorem State.modCe_l1i (s : State) (f : CeX → CeX) : (s.modCe f).l1i = s.l1i := rfl
@[simp] theorem State.modCe_memReqs (s : State) (f : CeX → CeX) : (s.modCe f).memReqs = s.memReqs := rfl
@[simp] theorem State.modCe_cxlSlots (s : State) (f : CeX → CeX) : (s.modCe f).cxlSlots = s.cxlSlots := rfl
@[simp] theorem State.modCe_remoteTimeout (s : State) (f : CeX → CeX) : (s.modCe f).remoteTimeout = s.remoteTimeout := rfl
@[simp] theorem State.modCe_cxlRanges (s : State) (f : CeX → CeX) : (s.modCe f).cxlRanges = s.cxlRanges := rfl
@[simp] theorem State.modCe_cxlDown (s : State) (f : CeX → CeX) : (s.modCe f).cxlDown = s.cxlDown := rfl
@[simp] theorem State.modCe_remote (s : State) (f : CeX → CeX) : (s.modCe f).remote = s.remote := rfl
@[simp] theorem State.modCe_semHost (s : State) (f : CeX → CeX) : (s.modCe f).semHost = s.semHost := rfl
@[simp] theorem State.modCe_semUps (s : State) (f : CeX → CeX) : (s.modCe f).semUps = s.semUps := rfl
@[simp] theorem State.modCe_arb (s : State) (f : CeX → CeX) : (s.modCe f).arb = s.arb := rfl
@[simp] theorem State.modCe_dma (s : State) (f : CeX → CeX) : (s.modCe f).dma = s.dma := rfl
@[simp] theorem State.modCe_fabPorts (s : State) (f : CeX → CeX) : (s.modCe f).fabPorts = s.fabPorts := rfl
@[simp] theorem State.modCe_fab (s : State) (f : CeX → CeX) : (s.modCe f).fab = s.fab := rfl
@[simp] theorem State.modCe_flows (s : State) (f : CeX → CeX) : (s.modCe f).flows = s.flows := rfl
@[simp] theorem State.modCe_eph (s : State) (f : CeX → CeX) : (s.modCe f).eph = s.eph := rfl
@[simp] theorem State.modCe_bar0 (s : State) (f : CeX → CeX) : (s.modCe f).bar0 = s.bar0 := rfl
@[simp] theorem State.modCe_msixCtl (s : State) (f : CeX → CeX) : (s.modCe f).msixCtl = s.msixCtl := rfl
@[simp] theorem State.modCe_ranas (s : State) (f : CeX → CeX) : (s.modCe f).ranas = s.ranas := rfl
@[simp] theorem State.modCe_log (s : State) (f : CeX → CeX) : (s.modCe f).log = s.log := rfl
@[simp] theorem State.modCe_freeCtr (s : State) (f : CeX → CeX) : (s.modCe f).freeCtr = s.freeCtr := rfl
@[simp] theorem State.modCe_out (s : State) (f : CeX → CeX) : (s.modCe f).out = s.out := rfl

/-! ## State.modEph -/

@[simp] theorem State.modEph_pending (s : State) (f : EphX → EphX) : (s.modEph f).pending = s.pending := rfl
@[simp] theorem State.modEph_variant (s : State) (f : EphX → EphX) : (s.modEph f).variant = s.variant := rfl
@[simp] theorem State.modEph_cores (s : State) (f : EphX → EphX) : (s.modEph f).cores = s.cores := rfl
@[simp] theorem State.modEph_monitor (s : State) (f : EphX → EphX) : (s.modEph f).monitor = s.monitor := rfl
@[simp] theorem State.modEph_thirdFault (s : State) (f : EphX → EphX) : (s.modEph f).thirdFault = s.thirdFault := rfl
@[simp] theorem State.modEph_retired (s : State) (f : EphX → EphX) : (s.modEph f).retired = s.retired := rfl
@[simp] theorem State.modEph_mxroot (s : State) (f : EphX → EphX) : (s.modEph f).mxroot = s.mxroot := rfl
@[simp] theorem State.modEph_mem (s : State) (f : EphX → EphX) : (s.modEph f).mem = s.mem := rfl
@[simp] theorem State.modEph_poison (s : State) (f : EphX → EphX) : (s.modEph f).poison = s.poison := rfl
@[simp] theorem State.modEph_lsBad (s : State) (f : EphX → EphX) : (s.modEph f).lsBad = s.lsBad := rfl
@[simp] theorem State.modEph_ctl (s : State) (f : EphX → EphX) : (s.modEph f).ctl = s.ctl := rfl
@[simp] theorem State.modEph_tickCount (s : State) (f : EphX → EphX) : (s.modEph f).tickCount = s.tickCount := rfl
@[simp] theorem State.modEph_tickShadow (s : State) (f : EphX → EphX) : (s.modEph f).tickShadow = s.tickShadow := rfl
@[simp] theorem State.modEph_tickStage (s : State) (f : EphX → EphX) : (s.modEph f).tickStage = s.tickStage := rfl
@[simp] theorem State.modEph_syncGood (s : State) (f : EphX → EphX) : (s.modEph f).syncGood = s.syncGood := rfl
@[simp] theorem State.modEph_syncMissed (s : State) (f : EphX → EphX) : (s.modEph f).syncMissed = s.syncMissed := rfl
@[simp] theorem State.modEph_syncSeen (s : State) (f : EphX → EphX) : (s.modEph f).syncSeen = s.syncSeen := rfl
@[simp] theorem State.modEph_switchKnown (s : State) (f : EphX → EphX) : (s.modEph f).switchKnown = s.switchKnown := rfl
@[simp] theorem State.modEph_lockReady (s : State) (f : EphX → EphX) : (s.modEph f).lockReady = s.lockReady := rfl
@[simp] theorem State.modEph_syncStepped (s : State) (f : EphX → EphX) : (s.modEph f).syncStepped = s.syncStepped := rfl
@[simp] theorem State.modEph_syncPeriod (s : State) (f : EphX → EphX) : (s.modEph f).syncPeriod = s.syncPeriod := rfl
@[simp] theorem State.modEph_syncMaster (s : State) (f : EphX → EphX) : (s.modEph f).syncMaster = s.syncMaster := rfl
@[simp] theorem State.modEph_sched (s : State) (f : EphX → EphX) : (s.modEph f).sched = s.sched := rfl
@[simp] theorem State.modEph_clockStep (s : State) (f : EphX → EphX) : (s.modEph f).clockStep = s.clockStep := rfl
@[simp] theorem State.modEph_tcLines (s : State) (f : EphX → EphX) : (s.modEph f).tcLines = s.tcLines := rfl
@[simp] theorem State.modEph_l1d (s : State) (f : EphX → EphX) : (s.modEph f).l1d = s.l1d := rfl
@[simp] theorem State.modEph_l1i (s : State) (f : EphX → EphX) : (s.modEph f).l1i = s.l1i := rfl
@[simp] theorem State.modEph_memReqs (s : State) (f : EphX → EphX) : (s.modEph f).memReqs = s.memReqs := rfl
@[simp] theorem State.modEph_cxlSlots (s : State) (f : EphX → EphX) : (s.modEph f).cxlSlots = s.cxlSlots := rfl
@[simp] theorem State.modEph_remoteTimeout (s : State) (f : EphX → EphX) : (s.modEph f).remoteTimeout = s.remoteTimeout := rfl
@[simp] theorem State.modEph_cxlRanges (s : State) (f : EphX → EphX) : (s.modEph f).cxlRanges = s.cxlRanges := rfl
@[simp] theorem State.modEph_cxlDown (s : State) (f : EphX → EphX) : (s.modEph f).cxlDown = s.cxlDown := rfl
@[simp] theorem State.modEph_remote (s : State) (f : EphX → EphX) : (s.modEph f).remote = s.remote := rfl
@[simp] theorem State.modEph_semHost (s : State) (f : EphX → EphX) : (s.modEph f).semHost = s.semHost := rfl
@[simp] theorem State.modEph_semUps (s : State) (f : EphX → EphX) : (s.modEph f).semUps = s.semUps := rfl
@[simp] theorem State.modEph_arb (s : State) (f : EphX → EphX) : (s.modEph f).arb = s.arb := rfl
@[simp] theorem State.modEph_dma (s : State) (f : EphX → EphX) : (s.modEph f).dma = s.dma := rfl
@[simp] theorem State.modEph_fabPorts (s : State) (f : EphX → EphX) : (s.modEph f).fabPorts = s.fabPorts := rfl
@[simp] theorem State.modEph_fab (s : State) (f : EphX → EphX) : (s.modEph f).fab = s.fab := rfl
@[simp] theorem State.modEph_flows (s : State) (f : EphX → EphX) : (s.modEph f).flows = s.flows := rfl
@[simp] theorem State.modEph_ce (s : State) (f : EphX → EphX) : (s.modEph f).ce = s.ce := rfl
@[simp] theorem State.modEph_bar0 (s : State) (f : EphX → EphX) : (s.modEph f).bar0 = s.bar0 := rfl
@[simp] theorem State.modEph_msixCtl (s : State) (f : EphX → EphX) : (s.modEph f).msixCtl = s.msixCtl := rfl
@[simp] theorem State.modEph_ranas (s : State) (f : EphX → EphX) : (s.modEph f).ranas = s.ranas := rfl
@[simp] theorem State.modEph_log (s : State) (f : EphX → EphX) : (s.modEph f).log = s.log := rfl
@[simp] theorem State.modEph_freeCtr (s : State) (f : EphX → EphX) : (s.modEph f).freeCtr = s.freeCtr := rfl
@[simp] theorem State.modEph_out (s : State) (f : EphX → EphX) : (s.modEph f).out = s.out := rfl

/-! ## State.modRanas -/

@[simp] theorem State.modRanas_pending (s : State) (f : Ranas → Ranas) : (s.modRanas f).pending = s.pending := rfl
@[simp] theorem State.modRanas_variant (s : State) (f : Ranas → Ranas) : (s.modRanas f).variant = s.variant := rfl
@[simp] theorem State.modRanas_cores (s : State) (f : Ranas → Ranas) : (s.modRanas f).cores = s.cores := rfl
@[simp] theorem State.modRanas_monitor (s : State) (f : Ranas → Ranas) : (s.modRanas f).monitor = s.monitor := rfl
@[simp] theorem State.modRanas_thirdFault (s : State) (f : Ranas → Ranas) : (s.modRanas f).thirdFault = s.thirdFault := rfl
@[simp] theorem State.modRanas_retired (s : State) (f : Ranas → Ranas) : (s.modRanas f).retired = s.retired := rfl
@[simp] theorem State.modRanas_mxroot (s : State) (f : Ranas → Ranas) : (s.modRanas f).mxroot = s.mxroot := rfl
@[simp] theorem State.modRanas_mem (s : State) (f : Ranas → Ranas) : (s.modRanas f).mem = s.mem := rfl
@[simp] theorem State.modRanas_poison (s : State) (f : Ranas → Ranas) : (s.modRanas f).poison = s.poison := rfl
@[simp] theorem State.modRanas_lsBad (s : State) (f : Ranas → Ranas) : (s.modRanas f).lsBad = s.lsBad := rfl
@[simp] theorem State.modRanas_ctl (s : State) (f : Ranas → Ranas) : (s.modRanas f).ctl = s.ctl := rfl
@[simp] theorem State.modRanas_tickCount (s : State) (f : Ranas → Ranas) : (s.modRanas f).tickCount = s.tickCount := rfl
@[simp] theorem State.modRanas_tickShadow (s : State) (f : Ranas → Ranas) : (s.modRanas f).tickShadow = s.tickShadow := rfl
@[simp] theorem State.modRanas_tickStage (s : State) (f : Ranas → Ranas) : (s.modRanas f).tickStage = s.tickStage := rfl
@[simp] theorem State.modRanas_syncGood (s : State) (f : Ranas → Ranas) : (s.modRanas f).syncGood = s.syncGood := rfl
@[simp] theorem State.modRanas_syncMissed (s : State) (f : Ranas → Ranas) : (s.modRanas f).syncMissed = s.syncMissed := rfl
@[simp] theorem State.modRanas_syncSeen (s : State) (f : Ranas → Ranas) : (s.modRanas f).syncSeen = s.syncSeen := rfl
@[simp] theorem State.modRanas_switchKnown (s : State) (f : Ranas → Ranas) : (s.modRanas f).switchKnown = s.switchKnown := rfl
@[simp] theorem State.modRanas_lockReady (s : State) (f : Ranas → Ranas) : (s.modRanas f).lockReady = s.lockReady := rfl
@[simp] theorem State.modRanas_syncStepped (s : State) (f : Ranas → Ranas) : (s.modRanas f).syncStepped = s.syncStepped := rfl
@[simp] theorem State.modRanas_syncPeriod (s : State) (f : Ranas → Ranas) : (s.modRanas f).syncPeriod = s.syncPeriod := rfl
@[simp] theorem State.modRanas_syncMaster (s : State) (f : Ranas → Ranas) : (s.modRanas f).syncMaster = s.syncMaster := rfl
@[simp] theorem State.modRanas_sched (s : State) (f : Ranas → Ranas) : (s.modRanas f).sched = s.sched := rfl
@[simp] theorem State.modRanas_clockStep (s : State) (f : Ranas → Ranas) : (s.modRanas f).clockStep = s.clockStep := rfl
@[simp] theorem State.modRanas_tcLines (s : State) (f : Ranas → Ranas) : (s.modRanas f).tcLines = s.tcLines := rfl
@[simp] theorem State.modRanas_l1d (s : State) (f : Ranas → Ranas) : (s.modRanas f).l1d = s.l1d := rfl
@[simp] theorem State.modRanas_l1i (s : State) (f : Ranas → Ranas) : (s.modRanas f).l1i = s.l1i := rfl
@[simp] theorem State.modRanas_memReqs (s : State) (f : Ranas → Ranas) : (s.modRanas f).memReqs = s.memReqs := rfl
@[simp] theorem State.modRanas_cxlSlots (s : State) (f : Ranas → Ranas) : (s.modRanas f).cxlSlots = s.cxlSlots := rfl
@[simp] theorem State.modRanas_remoteTimeout (s : State) (f : Ranas → Ranas) : (s.modRanas f).remoteTimeout = s.remoteTimeout := rfl
@[simp] theorem State.modRanas_cxlRanges (s : State) (f : Ranas → Ranas) : (s.modRanas f).cxlRanges = s.cxlRanges := rfl
@[simp] theorem State.modRanas_cxlDown (s : State) (f : Ranas → Ranas) : (s.modRanas f).cxlDown = s.cxlDown := rfl
@[simp] theorem State.modRanas_remote (s : State) (f : Ranas → Ranas) : (s.modRanas f).remote = s.remote := rfl
@[simp] theorem State.modRanas_semHost (s : State) (f : Ranas → Ranas) : (s.modRanas f).semHost = s.semHost := rfl
@[simp] theorem State.modRanas_semUps (s : State) (f : Ranas → Ranas) : (s.modRanas f).semUps = s.semUps := rfl
@[simp] theorem State.modRanas_arb (s : State) (f : Ranas → Ranas) : (s.modRanas f).arb = s.arb := rfl
@[simp] theorem State.modRanas_dma (s : State) (f : Ranas → Ranas) : (s.modRanas f).dma = s.dma := rfl
@[simp] theorem State.modRanas_fabPorts (s : State) (f : Ranas → Ranas) : (s.modRanas f).fabPorts = s.fabPorts := rfl
@[simp] theorem State.modRanas_fab (s : State) (f : Ranas → Ranas) : (s.modRanas f).fab = s.fab := rfl
@[simp] theorem State.modRanas_flows (s : State) (f : Ranas → Ranas) : (s.modRanas f).flows = s.flows := rfl
@[simp] theorem State.modRanas_eph (s : State) (f : Ranas → Ranas) : (s.modRanas f).eph = s.eph := rfl
@[simp] theorem State.modRanas_ce (s : State) (f : Ranas → Ranas) : (s.modRanas f).ce = s.ce := rfl
@[simp] theorem State.modRanas_bar0 (s : State) (f : Ranas → Ranas) : (s.modRanas f).bar0 = s.bar0 := rfl
@[simp] theorem State.modRanas_msixCtl (s : State) (f : Ranas → Ranas) : (s.modRanas f).msixCtl = s.msixCtl := rfl
@[simp] theorem State.modRanas_log (s : State) (f : Ranas → Ranas) : (s.modRanas f).log = s.log := rfl
@[simp] theorem State.modRanas_freeCtr (s : State) (f : Ranas → Ranas) : (s.modRanas f).freeCtr = s.freeCtr := rfl
@[simp] theorem State.modRanas_out (s : State) (f : Ranas → Ranas) : (s.modRanas f).out = s.out := rfl

/-! ## Reads after writes -/

theorem State.ctlGet_ctlSet (s : State) (o p : Nat) (w : Word) : (s.ctlSet o w).ctlGet p = if o = p then w else s.ctlGet p := by
  unfold State.ctlGet State.ctlSet
  by_cases h : o = p
  · subst h; simp
  · simpa [h] using Tbl.get_set_other _ _ _ _ h

@[simp] theorem State.ctlGet_ctlSet_same (s : State) (o : Nat) (w : Word) : (s.ctlSet o w).ctlGet o = w := by simp [State.ctlGet_ctlSet]

theorem State.ctlGet_ctlSet_ne (s : State) {o p : Nat} (w : Word) (h : o ≠ p) : (s.ctlSet o w).ctlGet p = s.ctlGet p := by
  simp [State.ctlGet_ctlSet, h]

theorem State.barGet_barSet (s : State) (o p : Nat) (w : Reg32) : (s.barSet o w).barGet p = if o = p then w else s.barGet p := by
  unfold State.barGet State.barSet
  by_cases h : o = p
  · subst h; simp
  · simpa [h] using Tbl.get_set_other _ _ _ _ h

@[simp] theorem State.barGet_barSet_same (s : State) (o : Nat) (w : Reg32) : (s.barSet o w).barGet o = w := by simp [State.barGet_barSet]

end Sys2Proof.Machine
end

