-- ==== Sys2Proof/Laws/Memory.lean ====
section
/-!
SUPPORT. The named operations over memory: what a byte reads as after a write, and that each keeps memory's canonical form.
-/
namespace Sys2Proof.Machine

/-! ## Writing cells -/

/-- A byte after a run of cells is written: inside the run the byte written, outside it the old byte. -/
theorem memWrite_get (m : Tbl Byte) (k : Nat) (l : List Byte) (j : Nat) :
    Tbl.get memDefault (memWrite m k l) j = if k ≤ j ∧ j < k + l.length then l.getD (j - k) memDefault else Tbl.get memDefault m j :=
  Tbl.get_setMany _ _ _ _ _

theorem memWrite_wf {m : Tbl Byte} (k : Nat) (l : List Byte) (w : Memory.wf m = true) : Memory.wf (memWrite m k l) = true :=
  Tbl.wf_setMany k l w

@[simp] theorem State.scrub_mem (s : State) (k n : Nat) : (s.scrub k n).mem = s.mem := rfl
@[simp] theorem State.scrub_byteAt (s : State) (k n j : Nat) : (s.scrub k n).byteAt j = s.byteAt j := rfl
@[simp] theorem State.scrub_pending (s : State) (k n : Nat) : (s.scrub k n).pending = s.pending := rfl
@[simp] theorem State.scrub_variant (s : State) (k n : Nat) : (s.scrub k n).variant = s.variant := rfl
@[simp] theorem State.scrub_ctl (s : State) (k n : Nat) : (s.scrub k n).ctl = s.ctl := rfl
@[simp] theorem State.scrub_cores (s : State) (k n : Nat) : (s.scrub k n).cores = s.cores := rfl

/-- What writing one piece can do: where the piece has no cells, nothing; otherwise its cells are written and the errors it covers clear. -/
theorem State.cellsPut_cases (s : State) (pa : Nat) (l : List Byte) :
    (s.cellKey pa = none ∧ s.cellsPut pa l = s) ∨
    (∃ k, s.cellKey pa = some k ∧ s.cellsPut pa l = ({ s with mem := memWrite s.mem k l } : State).scrub k l.length) := by
  unfold State.cellsPut
  cases h : s.cellKey pa with
  | none => exact .inl ⟨rfl, rfl⟩
  | some k => exact .inr ⟨k, rfl, rfl⟩

/-- A byte after one piece is written. -/
theorem State.cellsPut_byteAt {s : State} {pa k : Nat} (l : List Byte) (h : s.cellKey pa = some k) (j : Nat) :
    (s.cellsPut pa l).byteAt j = if k ≤ j ∧ j < k + l.length then l.getD (j - k) 0#8 else s.byteAt j := by
  simp only [State.cellsPut, h, State.scrub_byteAt]
  exact memWrite_get s.mem k l j

theorem State.cellsPut_wf {s : State} (pa : Nat) (l : List Byte) (w : Memory.wf s.mem = true) :
    Memory.wf (s.cellsPut pa l).mem = true := by
  rcases s.cellsPut_cases pa l with ⟨-, e⟩ | ⟨k, -, e⟩ <;> rw [e]
  · exact w
  · exact memWrite_wf k l w

/-- Writing pieces changes memory and the errors they cover, and nothing else. -/
theorem State.cellsPut_rest (s : State) (pa : Nat) (l : List Byte) :
    s.cellsPut pa l = { s with mem := (s.cellsPut pa l).mem, poison := (s.cellsPut pa l).poison, lsBad := (s.cellsPut pa l).lsBad } := by
  rcases s.cellsPut_cases pa l with ⟨-, e⟩ | ⟨k, -, e⟩ <;> rw [e] <;> rfl

@[simp] theorem State.cellsPut_pending (s : State) (pa : Nat) (l : List Byte) : (s.cellsPut pa l).pending = s.pending := by
  rw [s.cellsPut_rest]
@[simp] theorem State.cellsPut_variant (s : State) (pa : Nat) (l : List Byte) : (s.cellsPut pa l).variant = s.variant := by
  rw [s.cellsPut_rest]
@[simp] theorem State.cellsPut_ctl (s : State) (pa : Nat) (l : List Byte) : (s.cellsPut pa l).ctl = s.ctl := by
  rw [s.cellsPut_rest]
@[simp] theorem State.cellsPut_cores (s : State) (pa : Nat) (l : List Byte) : (s.cellsPut pa l).cores = s.cores := by
  rw [s.cellsPut_rest]

/-! ## Writing several pieces -/

theorem State.cellsPutAll_wf {s : State} (ps : List (Nat × Nat)) (l : List Byte) (w : Memory.wf s.mem = true) :
    Memory.wf (s.cellsPutAll ps l).mem = true := by
  induction ps generalizing s l with
  | nil => exact w
  | cons p r ih => exact ih (l.drop p.2) (State.cellsPut_wf p.1 (l.take p.2) w)

@[simp] theorem State.cellsPutAll_pending (s : State) (ps : List (Nat × Nat)) (l : List Byte) :
    (s.cellsPutAll ps l).pending = s.pending := by
  induction ps generalizing s l with
  | nil => rfl
  | cons p r ih => simp [State.cellsPutAll, ih]

@[simp] theorem State.cellsPutAll_variant (s : State) (ps : List (Nat × Nat)) (l : List Byte) :
    (s.cellsPutAll ps l).variant = s.variant := by
  induction ps generalizing s l with
  | nil => rfl
  | cons p r ih => simp [State.cellsPutAll, ih]

@[simp] theorem State.cellsPutAll_ctl (s : State) (ps : List (Nat × Nat)) (l : List Byte) :
    (s.cellsPutAll ps l).ctl = s.ctl := by
  induction ps generalizing s l with
  | nil => rfl
  | cons p r ih => simp [State.cellsPutAll, ih]

@[simp] theorem State.cellsPutAll_cores (s : State) (ps : List (Nat × Nat)) (l : List Byte) :
    (s.cellsPutAll ps l).cores = s.cores := by
  induction ps generalizing s l with
  | nil => rfl
  | cons p r ih => simp [State.cellsPutAll, ih]

theorem State.memQuiet_wf {s : State} (pa : Nat) (l : List Byte) (w : Memory.wf s.mem = true) :
    Memory.wf (s.memQuiet pa l).mem = true := State.cellsPutAll_wf _ l w

@[simp] theorem State.memQuiet_pending (s : State) (pa : Nat) (l : List Byte) : (s.memQuiet pa l).pending = s.pending := by
  simp [State.memQuiet]
@[simp] theorem State.memQuiet_variant (s : State) (pa : Nat) (l : List Byte) : (s.memQuiet pa l).variant = s.variant := by
  simp [State.memQuiet]
@[simp] theorem State.memQuiet_ctl (s : State) (pa : Nat) (l : List Byte) : (s.memQuiet pa l).ctl = s.ctl := by
  simp [State.memQuiet]
@[simp] theorem State.memQuiet_cores (s : State) (pa : Nat) (l : List Byte) : (s.memQuiet pa l).cores = s.cores := by
  simp [State.memQuiet]

/-! ## Generation counters -/

/-- Advancing generation counters writes control-window registers and nothing else. -/
theorem State.bumpAny_rest (s : State) (ps : List (Nat × Nat)) : s.bumpAny ps = { s with ctl := (s.bumpAny ps).ctl } := by
  have key : ∀ (l : List (Nat × Word)) (t : State), (∃ c, t = { s with ctl := c }) →
      ∃ c, l.foldl (fun t e =>
        let size := 0x10000 * 2 ^ fld e.2 28 5
        let base := fld e.2 0 28 * 0x10000 / size * size
        if ps.any (fun p => decide (p.1 < base + size) && decide (base < p.1 + p.2)) then
          t.ctlSet (e.1 + 8) (t.ctlGet (e.1 + 8) + 1#36) else t) t = { s with ctl := c } := by
    intro l
    induction l with
    | nil => exact fun t h => h
    | cons e r ih =>
      rintro t ⟨c, rfl⟩
      rw [List.foldl_cons]
      apply ih
      dsimp only
      split
      · exact ⟨_, rfl⟩
      · exact ⟨c, rfl⟩
  obtain ⟨c, h⟩ := key _ s ⟨s.ctl, rfl⟩
  have e : s.bumpAny ps = { s with ctl := c } := h
  rw [e]

@[simp] theorem State.bumpAny_mem (s : State) (ps : List (Nat × Nat)) : (s.bumpAny ps).mem = s.mem := by rw [s.bumpAny_rest]
@[simp] theorem State.bumpAny_pending (s : State) (ps : List (Nat × Nat)) : (s.bumpAny ps).pending = s.pending := by rw [s.bumpAny_rest]
@[simp] theorem State.bumpAny_variant (s : State) (ps : List (Nat × Nat)) : (s.bumpAny ps).variant = s.variant := by rw [s.bumpAny_rest]
@[simp] theorem State.bumpAny_cores (s : State) (ps : List (Nat × Nat)) : (s.bumpAny ps).cores = s.cores := by rw [s.bumpAny_rest]

/-! ## One access -/

/-- What a write of one access can do: where it has no cells, nothing; otherwise its pieces are written and the generation counters of the regions it touches advance. -/
theorem State.memPut_cases (s : State) (pa : Nat) (l : List Byte) :
    (s.cellKey pa = none ∧ s.memPut pa l = s) ∨
    (∃ k, s.cellKey pa = some k ∧ s.memPut pa l = (s.memQuiet pa l).bumpAny [(pa, l.length)]) := by
  unfold State.memPut
  cases h : s.cellKey pa with
  | none => exact .inl ⟨rfl, rfl⟩
  | some k => exact .inr ⟨k, rfl, rfl⟩

theorem State.memPut_wf {s : State} (pa : Nat) (l : List Byte) (w : Memory.wf s.mem = true) :
    Memory.wf (s.memPut pa l).mem = true := by
  rcases s.memPut_cases pa l with ⟨-, e⟩ | ⟨k, -, e⟩ <;> rw [e]
  · exact w
  · simpa using State.memQuiet_wf pa l w

@[simp] theorem State.memPut_pending (s : State) (pa : Nat) (l : List Byte) : (s.memPut pa l).pending = s.pending := by
  rcases s.memPut_cases pa l with ⟨-, e⟩ | ⟨k, -, e⟩ <;> rw [e] <;> simp
@[simp] theorem State.memPut_variant (s : State) (pa : Nat) (l : List Byte) : (s.memPut pa l).variant = s.variant := by
  rcases s.memPut_cases pa l with ⟨-, e⟩ | ⟨k, -, e⟩ <;> rw [e] <;> simp
@[simp] theorem State.memPut_cores (s : State) (pa : Nat) (l : List Byte) : (s.memPut pa l).cores = s.cores := by
  rcases s.memPut_cases pa l with ⟨-, e⟩ | ⟨k, -, e⟩ <;> rw [e] <;> simp

/-- Powering off takes cells out of memory, which keeps its form. -/
theorem Memory.wf_filter {m : Tbl Byte} (p : Nat × Byte → Bool) (w : Memory.wf m = true) : Memory.wf (m.filter p) = true :=
  Tbl.wf_filter p w

end Sys2Proof.Machine
end

