-- ==== Sys2Proof/Tests/Slice0.lean ====
section
/-!
SUPPORT. The package's own tests: what WellFormed refuses, one step of chosen commands, and states and operands that meet the hypotheses of the statements.
-/
namespace Sys2Proof.Tests
open Sys2Proof Sys2Proof.Machine

/-! ## Helpers -/

/-- The state a command leaves; a stop leaves the state as it was. -/
def after (c : Instr) (s : State) : State := match exec c s with | .next t => t | _ => s

/-- A core at M that issues, with stacks, registers and an address in a0. -/
def core0 : Core :=
  { run := .running, pc := selfPair 0x1000, w := [(1, 5#36), (2, 7#36), (3, 64#36)],
    a := [(0, selfPair 0x2000), (1, selfPair 0x2001)], dsp := ⟨selfPair 0x8000, selfPair 0x9000, selfPair 0xA000⟩,
    csp := ⟨selfPair 0xB000, selfPair 0xC000, selfPair 0xD000⟩,
    mreg := [(0x21, 0x40#36), (0x22, 0x100#36), (0x23, 0x40#36), (0x24, 0x100#36), (0x27, 0x40#36), (0x28, 0x100#36)] }

/-- A module whose core 0 issues. -/
def one (k : Core) : State := { cores := [(0, k)] }

/-- A core of a level. -/
def atLevel (l : Nat) : Core := { core0 with psw := word l }

def freeB (s : State) (c : Nat) : Bool :=
  s.live c && (s.core c).run == .running && !(s.core c).isEnded && (s.core c).pld.isNone && !s.remoteWait c && (s.core c).pick.isNone && !(s.core c).sstep

theorem free_of {s : State} {c : Nat} (b : freeB s c = true) : s.Free c := by
  simp only [freeB, Bool.and_eq_true, Bool.not_eq_true', Option.isNone_iff_eq_none, beq_iff_eq] at b
  obtain ⟨⟨⟨⟨⟨⟨a, b⟩, c⟩, d⟩, e⟩, f⟩, g⟩ := b
  exact ⟨a, b, c, d, e, f, g⟩

def readyB (s : State) (x : Issue) (h : Shape) : Bool :=
  freeB s x.core && h.legal x && (s.fetchBad x.core (s.core x.core).pl (s.core x.core).pc (h.len x)).isNone &&
    decide (((s.begin x h).core x.core).pTraps = (s.core x.core).pTraps)

theorem ready_of {s : State} {x : Issue} {h : Shape} (b : readyB s x h = true) : s.Ready x h := by
  simp only [readyB, Bool.and_eq_true, Option.isNone_iff_eq_none, decide_eq_true_eq] at b
  exact ⟨free_of b.1.1.1, b.1.1.2, b.1.2, b.2⟩

def rejectsB (s : State) (x : Issue) (h : Shape) (o : Nat) : Bool :=
  freeB s x.core && decide (h.illegal x = some o) && (s.fetchBad x.core (s.core x.core).pl (s.core x.core).pc (o + 1)).isNone

theorem rejects_of {s : State} {x : Issue} {h : Shape} {o : Nat} (b : rejectsB s x h o = true) : s.Rejects x h o := by
  simp only [rejectsB, Bool.and_eq_true, Option.isNone_iff_eq_none, decide_eq_true_eq] at b
  exact ⟨free_of b.1.1, b.1.2, b.2⟩

def isCtl : Region → Bool
  | .ctl _ => true
  | _ => false

theorem not_ctl {r : Region} (h : isCtl r = false) (o : Nat) : r ≠ .ctl o := by
  rintro rfl; simp [isCtl] at h

def slotB (s : State) (lvl : Nat) (need : Need) (a : Pair) (n pa : Nat) : Bool :=
  !badTop a && s.onDevice a && (match s.xlate lvl need (localOf a) with | .ok z => z.1 == pa | _ => false) &&
    (s.permits pa n).isNone && !isCtl (s.region pa)

theorem slot_of {s : State} {lvl : Nat} {need : Need} {a : Pair} {n pa : Nat} (b : slotB s lvl need a n pa = true) :
    s.SlotAt lvl need a n pa := by
  simp only [slotB, Bool.and_eq_true, Bool.not_eq_true', Option.isNone_iff_eq_none] at b
  obtain ⟨⟨⟨⟨a, b⟩, c⟩, d⟩, e⟩ := b
  refine ⟨a, b, ?_, d, not_ctl e⟩
  split at c
  · rename_i z hz
    exact ⟨z.2, by rw [hz, ← beq_iff_eq.1 c]⟩
  · simp at c

def placedB (s : State) (lvl : Nat) (need : Need) (l : List Slot) : Bool :=
  match s.wideCheck lvl need l with
  | .ok ls => ls.all (fun ps => ps.all (fun p => (s.readErr p.pa p.len).isNone && !isCtl (s.region p.pa)))
  | _ => false

theorem placed_of {s : State} {lvl : Nat} {need : Need} {l : List Slot} (b : placedB s lvl need l = true) :
    ∃ ls, s.Placed lvl need l ls := by
  unfold placedB at b
  split at b
  · rename_i ls hl
    simp only [List.all_eq_true, Bool.and_eq_true, Bool.not_eq_true', Option.isNone_iff_eq_none] at b
    exact ⟨ls, hl, fun ps hps p hp => (b ps hps p hp).1, fun ps hps p hp => not_ctl (b ps hps p hp).2⟩
  · simp at b

/-- An `Except` holds a value with a property. -/
def okB {ε α : Type} (e : Except ε α) (p : α → Bool) : Bool := match e with | .ok v => p v | .error _ => false

theorem ok_of {ε α : Type} {e : Except ε α} {p : α → Bool} (b : okB e p = true) : ∃ v, e = .ok v ∧ p v = true := by
  cases e with
  | ok v => exact ⟨v, rfl, b⟩
  | error _ => simp [okB] at b

theorem ok_eq {ε α : Type} [DecidableEq α] {e : Except ε α} {v : α} (b : okB e (fun u => decide (u = v)) = true) : e = .ok v := by
  obtain ⟨u, h, hu⟩ := ok_of b
  rw [h, of_decide_eq_true hu]

def x0 : Issue := { core := 0 }

/-! ## Scalar instructions: states and operands that meet the statements -/

theorem test_ready_scalar : ∀ h : Shape, h ∈ [shOps 0, shOps 1, shOps 2, shOps 3, shImm 1 (.short 9#16), shImm 2 (.long 1#36),
    { shImm 1 (.pair 3#72) with limm := 2 }, { shImm 2 (.pair 3#72) with limm := 2 }, shHalf 2, shHalf 3, shRB 0#8 0 35, shRB 35#8 0 35,
    shRB 1#8 1 35, { shRB 35#8 0 35 with fws := [1] }, shRBB 0#8 36#8, shRBB 35#8 1#8, shImm 0 (.short 4#16), shBc 14#8 (.short 4#16),
    shSys 0, shSys 1, shWait 0, shWait 1, shFence 1#8, { shSys 3 with bad := numBad 0x12#16 1 }, { shSys 3 with bad := numBad 0x20#16 0 }] → (one core0).Ready x0 h := by
  intro h hh
  apply ready_of
  revert h hh
  decide

theorem test_ready_half : ∀ h : Shape, h ∈ [shHalf 2, shHalf 3, { shRB 0#8 0 35 with fws := [1] }] → (one core0).Ready { x0 with fw := some 1#3 } h := by
  intro h hh
  apply ready_of
  revert h hh
  decide

theorem test_rejects_shift : (one core0).Rejects x0 (shRB 36#8 0 35) 3 := rejects_of (by decide)
theorem test_rejects_branch : (one core0).Rejects x0 (shBc 15#8 (.short 4#16)) 1 := rejects_of (by decide)
theorem test_zero_divisor_premises : ((one core0).core 0).getW 0#5 = 0#36 ∧ ((one core0).core 0).atrap = false ∧
    ((one { core0 with psw := 16#36 }).core 0).atrap = true ∧ (one { core0 with psw := 16#36 }).live 0 = true := by decide
theorem test_results_land_premises : ((one { core0 with mulQ := [15#72] }).core 0).mulQ = 15#72 :: [] ∧
    ((one { core0 with divQ := some (2#36, 1#36) }).core 0).divQ = some (2#36, 1#36) := by decide
theorem test_div_reads_w0 : (one { core0 with psw := 16#36 }).Ready x0 (shOps 2) := ready_of (by decide)

/-! ## Scalar memory and stacks -/

theorem test_load_slot : (one core0).SlotAt 0 .read (selfPair 0x2000 + immAddr (.short 8#16)) 8 0x2008 ∧
    (one core0).SlotAt 0 .read (selfPair 0x2010) 8 0x2010 ∧ (one core0).readErr 0x2008 8 = none ∧
    (one core0).SlotAt 0 .read (selfPair 0x2004) 4 0x2004 ∧ (one core0).SlotAt 0 .read (selfPair 0x2001) 1 0x2001 ∧
    (one core0).Ready x0 (shImm 2 (.short 8#16)) :=
  ⟨slot_of (by decide), slot_of (by decide), by decide, slot_of (by decide), slot_of (by decide), ready_of (by decide)⟩
theorem test_store_slot : (one core0).SlotAt 0 .write (selfPair 0x2008) 8 0x2008 ∧ (one core0).writeErr 0x2008 8 = none ∧
    (one core0).cellKey 0x2008 = some 0x2008 ∧ (one core0).SlotAt 0 .both (selfPair 0x2000) 8 0x2000 :=
  ⟨slot_of (by decide), by decide, by decide, slot_of (by decide)⟩
theorem test_stw_stores : (after (.stw x0 2#5 0#4 (.short 8#16)) (one core0)).bytesAt 0x2008 8 = [7#8, 0#8, 0#8, 0#8, 0#8, 0#8, 0#8, 0#8] := by decide
theorem test_ldb_extends : ((after (.ldbs x0 4#5 0#4 (.short 1#16)) { one core0 with mem := [(0x2001, 0x80#8)] }).core 0).getW 4#5 =
    0o777777777600#36 := by decide
theorem test_misaligned_base : ((one core0).core 0).getA 1#4 = selfPair 0x2001 ∧ (selfPair 0x2001).toNat % 8 ≠ 0 ∧ (selfPair 0x2001).toNat % 4 ≠ 0 := by decide
theorem test_misaligned_traps : after (.ldw x0 4#5 1#4 (.short 0#16)) (one core0) = (one core0).trapped 0 0x02 12#36 (selfPair 0x2001) := by decide
theorem test_stack_slots : (one core0).SlotAt 0 .write (selfPair 0x7FF8) 8 0x7FF8 ∧ (one core0).SlotAt 0 .write (selfPair 0x7FF0) 8 0x7FF0 ∧
    (one core0).SlotAt 0 .read (selfPair 0x8000) 8 0x8000 ∧ (one core0).SlotAt 0 .write (selfPair 0xAFF0) 8 0xAFF0 ∧
    (one core0).SlotAt 0 .read (selfPair 0xB000) 8 0xB000 ∧ core0.dlo 0 = 0x4000 ∧ core0.dhi 0 = 0x10000 ∧ core0.clo 0 = 0x4000 ∧ core0.chi 0 = 0x10000 :=
  ⟨slot_of (by decide), slot_of (by decide), slot_of (by decide), slot_of (by decide), slot_of (by decide), by decide, by decide, by decide, by decide⟩
theorem test_stack_bounds : (selfPair 0x3FF8 - 8#72).toNat % 8 = 0 ∧ ((selfPair 0x3FF8).extractLsb' 0 44).toNat < 0x4000 ∧
    0x10000 < ((selfPair 0x10000).extractLsb' 0 44).toNat + 8 ∧ (one core0).onDevice 0x5000#72 = false := by decide
theorem test_push_below_bound : after (.push x0 1#5) (one { core0 with dsp := ⟨selfPair 0x4000, 0#72, 0#72⟩ }) =
    (one { core0 with dsp := ⟨selfPair 0x4000, 0#72, 0#72⟩ }).trapped 0 0x09 5#36 (selfPair 0x3FF8) := by decide

/-! ## System map, exceptions -/

theorem test_levels : (one (atLevel 2)).Ready x0 (shSys 0) ∧ (one (atLevel 2)).Ready x0 (shWait 0) ∧ (one (atLevel 2)).Ready x0 (shSys 1) ∧ (one (atLevel 1)).Ready x0 (shSys 1) ∧
    ((one (atLevel 2)).core 0).pl = 2 ∧ (one (atLevel 2)).Ready x0 { shSys 3 with bad := numBad 0x20#16 1 } ∧
    (one (atLevel 2)).Ready x0 { shSys 3 with bad := numBad 0x20#16 0 } :=
  ⟨ready_of (by decide), ready_of (by decide), ready_of (by decide), ready_of (by decide), by decide, ready_of (by decide), ready_of (by decide)⟩
theorem test_machine_register_levels : rdmLevel 0x12 = some 2 ∧ rdmLevel 0x10 = some 1 ∧ rdmLevel 0x20 = some 0 ∧ wrmLevel 0x20 = 0 ∧ rdmLevel 0x19 = some 0 ∧ wrmLevel 0x10 = 1 ∧
    rdmLevel 0x31 = some 0 ∧ rdmLevel 0x2F = some 1 := by decide
theorem test_rdm_privilege : after (.rdm x0 1#5 0x20#16) (one (atLevel 2)) = (one (atLevel 2)).trapped 0 0x04 0x201#36 0#72 := by decide
theorem test_open_task : (one { core0 with mreg := [(0x11, 1#36)] }).live 0 = true ∧ core0.arrQ = [] ∧
    ({ one { core0 with mreg := [(0x11, 1#36)] } with monitor := [(0, { task := .frame })] } : State).Ready x0 (shSys 0) ∧
    (({ one { core0 with mreg := [(0x11, 1#36)] } with monitor := [(0, { task := .frame })] } : State).core 0).open = true ∧
    (({ one { core0 with mreg := [(0x11, 1#36)] } with monitor := [(0, { task := .frame })] } : State).mon 0).task = .frame :=
  ⟨by decide, by decide, ready_of (by decide), by decide, by decide⟩
theorem test_rdamax : (one core0).Ready x0 { shSys 2 with bad := need (decide ((1#8).toNat < vpipes)) 1 } := ready_of (by decide)
theorem test_entry_premises : let k := ((one core0).core 0).settle
    k.dfActive = false ∧ k.depth 0 < k.nlimit ∧ (one core0).checkFrame k 0 (k.dsp.get 0 - 64#72) = .ok ((List.range 8).map (fun i => 0x7FC0 + 8 * i)) ∧
      (one core0).frameErr ((List.range 8).map (fun i => 0x7FC0 + 8 * i)) = none :=
  ⟨by decide, by decide, ok_eq (by decide), by decide⟩

/-- A core inside an exception that it took from T: the frame at its stack pointer holds PSW 2, PC 0x3000 and entry word 8 + 64. -/
def inHandler : State :=
  { one { core0 with mreg := core0.mreg.insert 0x18 (word (1 + 8 * 2 ^ 12)) } with
    mem := memWrite (memWrite (memWrite [] 0x8000 (wordBytes 2#36)) 0x8008 (wordBytes 0x3000#36 ++ wordBytes 0x400000#36)) 0x8038 (wordBytes 0x48#36) }
theorem test_eret_premises : inHandler.Ready x0 (shWait 0) ∧ (inHandler.core 0).drain.heldTraps = [] ∧ (inHandler.core 0).drain = inHandler.core 0 ∧ inHandler.stackBad (selfPair 0x8000) 64 8 (core0.dlo 0) (core0.dhi 0) = none ∧
    inHandler.readSlots 0 (selfPair 0x8000) = .ok [2#36, 0x3000#36, 0x400000#36, 0#36, 0#36, 0#36, 0#36, 0x48#36] ∧ 0 < (inHandler.core 0).depth 0 ∧
    ((inHandler.core 0).getMreg 0x1F).getLsbD 8 = false :=
  ⟨ready_of (by decide), by decide, by decide, by decide, ok_eq (by decide), by decide, by decide⟩
theorem test_eret_returns : ((after (.eret x0) inHandler).core 0).pc = selfPair 0x3000 ∧ ((after (.eret x0) inHandler).core 0).pl = 2 := by decide
theorem test_brk_enters : ((after (.brk x0) (one core0)).core 0).pl = 0 ∧ (after (.brk x0) (one core0)).bytesAt 0x7FE8 1 = [0x10#8] := by decide

/-! ## The vector engine -/

theorem test_ready_vector : ∀ h : Shape, h ∈ [shV setAll 2, shV setAll 3, shV setAll 4, shVN setAll 3, shVN setAll 4, shVM 2, shVM 3,
    { shVM 3 with bad := need (decide ((1#8).toNat < 2)) 2 }, { shV setWd 4 with bad := need (decide ((6#8).toNat < 7)) 3 }, shV setFl 2, shV setFl 3,
    shV [0, 1, 2, 3] 2, { shV setAll 5 with bad := cvtBad x0 false 1#8 0#8 2 }, { shV setAll 5 with bad := cvtBad x0 true 1#8 0x20#8 2 },
    shVMem (.short 0#16) 0, shVNar (.short 0#16) 1#8, shVNar (.short 0#16) 14#8] → (one core0).Ready x0 h := by
  intro h hh
  apply ready_of
  revert h hh
  decide

/-- An 18-bit integer form under a zeroing mask. -/
def xm : Issue := { core := 0, fw := some 3#3, mask := some (true, 1#3) }

theorem test_ready_vector_int : ∀ h : Shape, h ∈ [shV setAll 3, shV setIn 1, shV setIn 2, shV setIn 3, { shV setIn 4 with bad := immBad xm 17#8 0 3 },
    { shV setSg 3 with bad := immBad xm 0#8 0 2 }, { shV setIn 3 with bad := immBad xm 17#8 1 2 }, { shV setIn 3 with bad := immBad xm 1#8 1 2 }] →
    (one core0).Ready xm h := by
  intro h hh
  apply ready_of
  revert h hh
  decide

theorem test_mxq_premises : [1, 2, 5, 6, 7, 8].contains (1#8).toNat = true ∧ (0#8).toNat < 32 ∧ c2Amax (0#8) < vpipes ∧
    c2Part (0#8) < (codeFmt (1#8).toNat).perSlot ∧ (one core0).Ready x0 { shV [0] 5 with bad := none } ∧ (one core0).Ready x0 { shVM 4 with bad := none } ∧
    (core0.getAmax 0).getLsbD 35 = false ∧ (({ core0 with amax := [(1, 0x800000001#36)] } : Core).getAmax 1).getLsbD 35 = true :=
  ⟨by decide, by decide, by decide, by decide, ready_of (by decide), ready_of (by decide), by decide, by decide⟩

theorem test_trap_premises : (one { core0 with psw := 16#36 }).Ready x0 (shV setFl 3) ∧ (laneFmt x0).isInt = false ∧
    ({ core0 with psw := 16#36 } : Core).atrap = true ∧ core0.pTraps = [] := ⟨ready_of (by decide), by decide, by decide, by decide⟩

theorem test_mask_lane : (core0.act x0).getLsbD 63 = true ∧ ({ core0 with m := [(1, 1#64)] } : Core).act xm = 1#64 := by decide

theorem test_vadd_wraps : lane (((after (.vadd { core := 0, fw := some 4#3 } 3#5 1#5 2#5)
    (one { core0 with v := [(1, 0o777777777777#36 :: List.replicate 63 0#36), (2, 2#36 :: List.replicate 63 0#36)] })).core 0).getV 3#5) 0 = 1#36 := by decide

theorem test_vector_memory_premises : (∃ ls, (one core0).Placed 0 .read ([0, 1, 63].map (contiguous 0 3 (selfPair 0x2000)).slot) ls) ∧
    (∃ ls, (one core0).Placed 0 .write ([0, 63].map (contiguous 14 2 (selfPair 0x2000)).slot) ls) ∧
    (∃ ls, (one core0).Placed 0 .read ([0, 63].map (strided (selfPair 0x2000) 16#36).slot) ls) ∧
    (∃ ls, (one core0).Placed 0 .write ([0, 63].map (indexed (selfPair 0x2000) (List.replicate 64 3#36)).slot) ls) ∧
    ((selfPair 0x2000).toNat % 8 = 0) ∧ (one core0).strayLane (contiguous 0 3 (selfPair 0x2000)) [0, 1, 63] = none ∧
    (one core0).onDevice ((contiguous 0 3 (selfPair 0x2000)).addr 0) = true :=
  ⟨placed_of (by decide), placed_of (by decide), placed_of (by decide), placed_of (by decide), by decide, by decide, by decide⟩

/-! ## Plates and the matrix array -/

/-- A core with two VALID plates of 2 rows and 2 slots of format 0, an accumulator plate of format 11, and plate 3 LOADING. -/
def coreP : Core :=
  let q (fmt st : Nat) : Plate := { cfg := word (1 + 1 * 256 + fmt * 65536), status := word st }
  { core0 with w := [(1, 1#36), (2, 2#36), (3, 0x10101#36), (4, 64#36), (5, 1#36)]
               plates := [(0, q 0 1), (1, q 0 1), (2, q 11 1), (3, q 0 2), (4, q 5 1)] }

theorem test_ready_plates : ∀ h : Shape, h ∈ [{ shP 1 with bad := plBad 15#5 0 }, { shP 2 with bad := plBad 0#5 0 }, shP 1,
    { shP 3 with bad := firstBad [plBad 1#5 1, need (decide ((2#8).toNat ≤ 2)) 2] }, { shP 3 with maskOk := true, bad := plBad 0#5 1 }, shRow 15#5,
    { shP 4 with psoOk := true, bad := firstBad [plBad 1#5 0, plBad 0#5 1, need (fld (0x20#8) 0 3 == 0 && !bitAt (0x20#8) 7 && decide (c2Amax (0x20#8) < vpipes)) 2] },
    { shP 2 with bad := need (decide ((8#8).toNat ≤ 8)) 1 }, { shP 1 with bad := need (decide ((15#8).toNat < 16)) 0 },
    shLoad [4#5] 0#8, shLoad [4#5, 1#5] 3#8, shPass [2#5, 4#5] 1 5#5, shPass [2#5, 4#5, 0#5] 1 5#5, shPass [2#5, 4#5] 3 5#5] → (one coreP).Ready x0 h := by
  intro h hh
  apply ready_of
  revert h hh
  decide

theorem test_plate_premises : coreP.arrQ = [] ∧ coreP.atrap = false ∧ (coreP.plate 0).state = 1 ∧ (coreP.plate 3).state = 2 ∧ (coreP.plate 9).state = 0 ∧
    (coreP.plate 0).nrows = 2 ∧ (coreP.getW 2#5).toNat = 2 ∧ coreP.plcvtChk x0 1 0 = none := by decide
theorem test_plcfg_reasons : ((coreP.getW 3#5).extractLsb' 0 8).toNat = 1 ∧ ((coreP.getW 4#5).extractLsb' 0 8).toNat = 64 ∧
    after (.plcfg x0 0#5 4#5) (one coreP) = (one coreP).trapped 0 0x07 0#36 0#72 := by decide

/-- Plates for PLMXQ: 1 row of 32 FP elements, one row of 8 slots of format 1, one of scales. -/
def coreQ : Core :=
  { core0 with plates := [(0, { cfg := word (7 * 256 + 1 * 65536) }), (1, { cfg := word (13 * 65536) }),
                          (2, { cfg := word (31 * 256), status := 1#36 })] }
theorem test_mxq_plates : coreQ.plmxqChk x0 0 1 2 = none ∧ coreQ.arrQ = [] := by decide

theorem test_row_premises : rowChk .read (imageFmt x0 (coreP.plate 0)) 2 2 (selfPair 0x2000) 64#72 = none ∧ (coreP.plate 0).nslots = 2 ∧
    (∃ ls, (one coreP).Placed 0 .read (rowSlots 0 2 (selfPair 0x2000)) ls) := ⟨by decide, by decide, placed_of (by decide)⟩

/-- A core whose plate load waits for its second row. -/
def coreL : Core :=
  { coreP with pld := some ⟨3, selfPair 0x2000, 64#72, 2, 2, 0, selfPair 0x1000, selfPair 0x1005⟩
               plates := coreP.plates.set {} 3 { cfg := word 257, status := word (2 + 4) } }
theorem test_row_write_premises : (coreL.pld.isSome = true) ∧ (one coreL).live 0 = true ∧ (one coreL).remoteWait 0 = false ∧ coreL.pick = none ∧
    (coreL.plate 3).rowsDone = 1 ∧ (coreL.plate 3).state = 2 := by decide
theorem test_last_row_ends_load : ((after (.pldRowWrite 0) (one coreL)).core 0).pc = selfPair 0x1005 ∧
    (((after (.pldRowWrite 0) (one coreL)).core 0).plate 3).state = 1 := by decide

theorem test_image_premises : (coreP.plate 0).image.length = 12 ∧ (headerPlate (coreP.plate 0).image).malformed = false ∧ arrMalformed core0.arrImage = false ∧
    (∃ ls, (one coreP).Placed 0 .write (spanSlots (selfPair 0x2000) 96 8) ls) ∧ straySlot (selfPair 0x2000) (spanSlots (selfPair 0x2000) 96 8) = none :=
  ⟨by decide, by decide, by decide, placed_of (by decide), by decide⟩

theorem test_array_premises : coreP.drain.loadChk x0 .ld 4 4 0 = none ∧ (coreP.arrQ.filter (fun o => o.part == 0)).length < 4 := by decide

/-- A core with a load and a pass in flight. -/
def coreA : Core := { coreP with arrQ := [{ kind := .ld, part := 0, p0 := 4, rows := 2, slots := 2 }] }
def coreB : Core := { (match exec (.stationaryLoadComplete 0) (one coreA) with | .next t => t.core 0 | _ => coreA) with
  arrQ := [{ kind := .mma, part := 0, p0 := 2, p1 := 4, rows := 2, slots := 2, ws := word (2 ^ 14) }] }
theorem test_load_completes : (coreB.aset 2).valid = true ∧ (coreB.aset 2).n = 2 ∧ (coreB.aset 2).k = 2 := by decide
theorem test_pass_completes : (((after (.passComplete 0) (one coreB)).core 0).aset 1).valid = true ∧ (((after (.passComplete 0) (one coreB)).core 0).plate 2).state = 1 := by decide
theorem test_pass_premises : ({ coreB with arrQ := [] } : Core).drain.passChk x0 .mma 2 4 4 (word (2 ^ 14)) 0#36 0#36 = none := by decide

/-! ## Ticks, schedules and tasks -/

/-- A module whose control window holds the listed words. -/
def ctlOf (l : List (Nat × Word)) : State := l.foldl (fun s e => s.ctlSet e.1 e.2) {}

/-- STATUS of the tick unit in fabric-locked mode, locked. -/
def locked : State := ctlOf [(0x00, 2#36), (0x08, 6#36)]

theorem test_tick_premises : State.reset.fab.seedDrop = false ∧ State.reset.remote = [] ∧ (one core0).deaf 0 = false ∧ 191 < State.reset.variant.cores := by decide
set_option maxRecDepth 20000 in
theorem test_tick_counts : (after .tick (one core0)).tickCount = 1#72 := by decide
theorem test_sync_premises : (locked.ctlGet 0x08).getLsbD 4 = false ∧ (locked.ctlGet 0x08).getLsbD 2 = true ∧ 0 = locked.now ∧ 5 ≠ locked.now ∧
    50 ≤ locked.ctlFld 0x00 10 8 + 50 ∧ (ctlOf [(0x00, 2#36)]).ctlFld 0x00 0 2 = 2 ∧ (ctlOf [(0x00, 2#36)]).ctlFld 0x08 0 2 = 1 ∧
    (ctlOf [(0x00, 2#36)]).schedNow = none := by decide
theorem test_wrong_sync_unlocks : (after (.tickSync 5 0 0 0 1000000 none) locked).ctlFld 0x08 2 1 = 0 := by decide
theorem test_free_running_steps : (after (.tickSync 77 0 0 0 1000000 none) (ctlOf [(0x00, 2#36)])).now = 77 := by decide
theorem test_holdover_premises : ((ctlOf [(0x00, 10#36), (0x08, 0x100000e#36)]).ctlGet 0x08).getLsbD 3 = true ∧
    (ctlOf [(0x00, 10#36), (0x08, 0x100000e#36)]).ctlFld 0x00 2 8 ≤ (ctlOf [(0x00, 10#36), (0x08, 0x100000e#36)]).ctlFld 0x08 19 8 := by decide
theorem test_period_switch : (after (.periodSwitch 0#36) (ctlOf [(0x08, 6#36), (0x20, word (900000 + 2 ^ 26))])).ctlFld 0x18 0 26 = 900000 := by decide
theorem test_mode_change_premises : (ctlOf [(0x00, 0#36)]).ctlFld 0x00 0 2 = 0 ∧ (ctlOf [(0x00, 0#36)]).ctlFld 0x08 0 2 = 1 ∧
    (ctlOf [(0x00, 2#36), (0x08, 0#36)]).ctlFld 0x08 0 2 = 0 := by decide

/-- Schedule 0 of length 2 from tick 0 with a task of core 0 in frame 0 and a transmit slot on port 3. -/
def scheduled : State :=
  { one core0 with
    sched := { sched := [(0, { len := 2, tasks := [(0, (selfPair 0x4000, 9#36, 1#36))], slots := [(3, [BitVec.ofNat 64 (5 * 2 ^ 12 + 7 * 2 ^ 32 + 2 ^ 46)])] })],
               active := some (0, 0) }
    ctl := [(0x08, 6#36)] }
theorem test_schedule_premises : scheduled.frameIndex = some 0 ∧ scheduled.slotEntry 3 0 5 = some (BitVec.ofNat 64 (5 * 2 ^ 12 + 7 * 2 ^ 32 + 2 ^ 46)) ∧
    scheduled.ctlFld 0x08 0 2 = 2 ∧ scheduled.remote = [] ∧ scheduled.ce.unsent = [] ∧
    ({ scheduled with sched := { scheduled.sched with pendStop := [0] }, tickCount := 3#72 } : State).sched.active = some (0, 0) := by decide
theorem test_slot_gives_flow : Tbl.get 0 (after (.slotStart 3 5) scheduled).sched.slotFlow 3 = 8 := by decide
theorem test_schedule_starts : (after .scheduleStartAtTick { State.reset with sched := { pendStart := [(1, 0)] } }).sched.active = some (1, 0) := by decide
theorem test_schedule_stops : (after .scheduleStopAtTick { State.reset with sched := { active := some (0, 1), pendStop := [3] }, tickCount := 3#72 }).sched.active = none := by decide

/-- Core 0 inside its tick handler. -/
def inTick (open_ : Bool) : State :=
  { scheduled with
    cores := [(0, { core0 with mreg := ((core0.mreg.insert 0x11 (word (4 + open_.toNat))).insert 0x18 (word (1 + 8 * 2 ^ 12))) })]
    mem := memWrite (memWrite [] 0x8008 (wordBytes 0x3000#36)) 0x8038 (wordBytes 0x40#36)
    monitor := if open_ then [(0, { task := .frame })] else [] }
theorem test_task_premises : (inTick false).live 0 = true ∧ (inTick false).remoteWait 0 = false ∧ ((inTick false).core 0).tickTop = true ∧
    (inTick false).frameTask 0 = some (selfPair 0x4000, 9#36, 1#36) ∧ ((inTick true).core 0).open = true ∧ ((inTick true).mon 0).task = .frame := by decide
theorem test_task_starts : ((after (.frameTaskStart 0) (inTick false)).core 0).pc = selfPair 0x4000 ∧ ((after (.frameTaskStart 0) (inTick false)).core 0).pl = 1 ∧
    ((after (.frameTaskStart 0) (inTick false)).core 0).getW 1#5 = 9#36 := by decide
theorem test_waiting_task_premises :
    let k : Core := { core0 with ended := true, taskLevel := 0 }
    let s : State := { scheduled with cores := [(0, k)], monitor := [(0, { waits := some 0 })] }
    s.live 0 = true ∧ k.tickTop = false ∧ k.isEnded = true ∧ s.taskEntry 0 0 = some (selfPair 0x4000, 9#36, 1#36) := by decide

/-- Core 0 idle, with a deferred queue of 16 entries at 0x10000 whose first entry is valid. -/
def queued : State :=
  { scheduled with
    cores := [(0, { core0 with run := .idle })]
    monitor := [(0, { opp := true })]
    sched := { scheduled.sched with dq := [(0, 0x10000)] }
    mem := memWrite (memWrite [] 0x10000 (wordBytes 0x14#36)) 0x10040 (wordBytes 0x5000#36 ++ wordBytes 0x4000000#36 ++ wordBytes 3#36 ++ wordBytes (word (1 + 100 * 8))) }
theorem test_deferred_premises : queued.dqBase 0 = 0x10000 ∧ (queued.mon 0).opp = true ∧ (queued.core 0).free = true ∧
    dqEntry 0x10000 0 = 0x10040 ∧ queued.dqFirstBad false [0x10000, 0x10008, 0x10040, 0x10048, 0x10050, 0x10058] = none ∧
    queued.dqFirstBad true [0x10010] = none ∧ 100 ≤ queued.clocksLeft 0 ∧ queued.wordAt 0x10058 = word 801 := by decide
theorem test_deferred_starts : ((after (.deferredServe 0 0) queued).core 0).pc = mkPair 0x4000000#36 0x5000#36 ∧
    ((after (.deferredServe 0 0) queued).core 0).getW 1#5 = 3#36 := by decide

theorem test_exception_premises : ({ core0 with pSigs := [{ kind := 2, index := 0, level := 0 }] } : Core).pick.isSome = true ∧
    ({ core0 with pReports := [⟨0x03, 0#36, 0#72, 0⟩] } : Core).pick.isSome = true ∧ ({ core0 with pTick := true } : Core).pick.isSome = true ∧
    core0.dfActive = false ∧ core0.inTick = false ∧ (one core0).live 0 = true ∧ ((one core0).mon 0).due = [] := by decide

/-! ## Registers, memory system, remote accesses and DMA -/

theorem test_register_premises : (one core0).agentLive (.core 0) = true ∧ (one core0).ctlDenied ((one core0).agentLevel (.core 0)) 0x00 = false ∧
    (one (atLevel 1)).ctlDenied ((one (atLevel 1)).agentLevel (.core 0)) 0x00 = true ∧ (one (atLevel 2)).ctlReadDenied 2 0x100000 = true ∧ (one core0).ctlReadDenied 0 0x100000 = false ∧
    ctlInBlock 0x200028 = true ∧ 3 < State.reset.variant.dies ∧ dmaPresent State.reset.variant 255 = true ∧ 511 < 512 := by decide
theorem test_denied_write_traps : after (.tickCtrlWrite (.core 0) 0 2#36) (one (atLevel 1)) = (one (atLevel 1)).trapped 0 0x04 0x5#36 0#72 := by decide
theorem test_count_hi_is_shadowed : Tbl.get 0#36 (after (.tickCountLoRead (.core 0)) { one core0 with tickCount := (3#36 ++ 5#36 : BitVec 72) }).tickShadow 0 = 3#36 := by decide

/-- A module with one admitted read of line 0x40 by core 0, for register w4. -/
def requested : State :=
  { one core0 with memReqs := [{ agent := 0, pa := 0x40, write := false, bank := 0, admitted := true, acc := { addr := selfPair 0x40, kind := .reg 16 } }] }
theorem test_request_premises : (one core0).region 0x40 = .gddr ∧ (one core0).agentPresent 0 = true ∧ (one core0).canAdmit 0x40 = true ∧
    ((one core0).ctlSet (memCtrlOff 0 0) 0#36).slotFree 0x40 = true ∧ ((one core0).ctlSet (memCtrlOff 0 0) 0#36).bankRoom 0x40 = false ∧
    requested.readErr 0x40 1 = none ∧ requested.ctlFld 0x60008 0 2 ≠ 1 := by decide
theorem test_failed_line_is_poisoned : (after (.memoryRequestComplete 0 0x40 false .failed 0) requested).readErr 0x40 1 = some 3 := by decide
theorem test_maintenance_premises : (((one core0).ctlSet 0x80008 0xA#36).ctlGet 0x80008).getLsbD 3 = true ∧ (((one core0).ctlSet 0x80008 0xA#36).ctlGet 0x80008).toNat % 4 = 2 ∧
    (one core0).gddrDevice 0x40 = 0 ∧ 1 < State.reset.variant.cxlPorts := by decide
theorem test_maintenance_done : ((after (.tcOpDone 0 []) ((one core0).ctlSet 0x80008 0xA#36)).ctlGet 0x80008).getLsbD 4 = true := by decide

/-- A tensor cache bank whose input 1 has a higher class than its input 0. -/
def ranked : State := State.reset.ctlSet (arbOff 64 0x40) 4#36
theorem test_arbiter_premises : arbPresent ranked.variant 64 = true ∧ ranked.slotHeld 64 = false ∧
    ranked.contest 64 [{ input := 0 }, { input := 1 }] = [{ input := 0 }, { input := 1 }] ∧ (ranked.arbX 64).lock = none ∧
    ranked.arbRank 64 { input := 0 } < ranked.arbRank 64 { input := 1 } ∧
    0 + 1 < ranked.ctlFld (arbOff 64 0) 5 12 ∧ ranked.ctlFld (arbOff 64 0) 5 12 ≤ 4095 := by decide
theorem test_arbiter_counts_losers : Tbl.get 0 ((after (.arbitrationDecision 64 [{ input := 0 }, { input := 1 }]) ranked).arbX 64).lost 0 = 1 := by decide
theorem test_locklong_premises : let s : State := ({} : State).setArbX 0 { lock := some (1, 65535) }
    (s.arbX 0).lock = some (1, 65535) ∧ (s.arbX 0).longDone = false ∧ s.ctlFld 0x20000 17 16 ≤ 65535 := by decide
theorem test_semaphore_premises : 0 < State.reset.variant.semas ∧ (0#36 : Word).toInt < (1#36 : Word).toInt ∧
    (((one core0).ctlSet 0x10008 0x200#36).ctlGet 0x10008).getLsbD 9 = true ∧ (one core0).isRetired 0 = false ∧
    (one (atLevel 2)).ctlDenied 2 0x220010 = false := by decide
theorem test_semaphore_signals : ((after (.semCountUpdate (.core 0) 0 1 1#36 0#36) ((one core0).ctlSet 0x10008 0x200#36)).core 0).pSigs = [⟨0, 0, 0⟩] := by decide
set_option maxRecDepth 20000 in
theorem test_mailbox_post : ((after (.cmbxPost (.core 0) 0 7 9#36) (one core0)).ctlGet 0x2200E8).getLsbD 0 = true := by decide

/-- An admitted device, the first of a ring of 4, whose flow context 2 is OPEN toward device 1. -/
def flowing : State := ctlOf [(0x200008, 3#36), (0x200010, word (2 ^ 14)), (0x200018, 1#36), (portOff 0 8, 2#36), (portOff 1 8, 2#36), (0x200050, 3#36),
  (flowOff 2 0, 4#36), (flowOff 2 8, word (1 + 9 * 2 ^ 14))]
def rx0 (typ : Nat) : Rx := { pseq := 0, typ := typ, level := 0, parts := [(0x2000, 8)], body := [1#8, 0#8, 0#8, 0#8, 0#8, 0#8, 0#8, 0#8] }
theorem test_remote_premises : flowing.flowState 2 = 4 ∧ flowing.fabState = 3 ∧ flowing.ctlFld (flowOff 2 0x10) 16 16 = 0 ∧ (flowing.flowX 2).held = [] ∧
    (∃ ls, flowing.Placed 0 .read (rxSlots (rx0 1)) ls) ∧ (∃ ls, flowing.Placed 0 .write (rxSlots (rx0 0)) ls) ∧ (∃ ls, flowing.Placed 0 .both (rxSlots (rx0 3)) ls) ∧
    flowing.serves 0x2000 = true ∧ flowing.flows = [] ∧ (flowing.routeOf (flowing.flowDev 2) none none).isSome = true :=
  ⟨by decide, by decide, by decide, by decide, placed_of (by decide), placed_of (by decide), placed_of (by decide), by decide, by decide, by decide⟩
set_option maxRecDepth 20000 in
theorem test_read_is_answered : (after (.read 2 (rx0 1)) flowing).out.head? = some (.packet 2 1 9 2 0 (List.replicate 9 0#8)) := by decide
def waiting_ (p : Option Nat) : State :=
  { flowing with cores := [(0, core0)], remote := [{ core := 0, flow := 2, pseq := p, typ := 1, addr := 0x2000#72, body := [], dest := .w 4#5 0, pc := selfPair 0x1000,
                                                     next := selfPair 0x1005, level := 0, precise := true, access := 0 }] }
theorem test_response_premises : ((waiting_ (some 3)).sentReq 2 3).isSome = true ∧ ((waiting_ (some 3)).core 0).sstep = false ∧
    ((waiting_ none).remote.find? (fun r => r.core == 0)).isSome = true := by decide
theorem test_response_writes_register : ((after (.resp 2 3 (.data [5#8, 0#8, 0#8, 0#8, 0#8, 0#8, 0#8, 0#8])) (waiting_ (some 3))).core 0).getW 4#5 = 5#36 := by decide

/-- Channel 0 in a state, with its ring at 0x20000 and its queue at 0x30000; `l` is the descriptor at HEAD. -/
def channel (st : Nat) (x : DmaX) (l : List Word) : State :=
  { (ctlOf [(0x100000, word (2 * 2 ^ 15 + 2 * 2 ^ 19)), (0x100018, word st), (0x100020, 0x20000#36), (0x100028, 0x400000#36), (0x100038, 0x30000#36),
            (0x100040, 0x400000#36)]).setDmaX 0 x with mem := memWrite [] 0x20000 (l.flatMap wordBytes) }
def copyDesc : List Word := [word (0x80 + 1), 0x2000#36, 0x400000#36, 0x3000#36, 0x400000#36, 16#36, 0#36, 0#36]
theorem test_dma_control_premises : (channel 4 {} []).dmaState 0 = 4 ∧ (channel 0 {} []).dmaState 0 = 0 ∧ dmaPresent (channel 0 {} []).variant 0 = true ∧
    (channel 2 {} []).variant = .m9440 ∧ (channel 1 {} copyDesc).dmaHead 0 = 0 := by decide
theorem test_dma_words : (∀ i, i < 8 → okB ((channel 1 {} copyDesc).dmaPlain 0 .read (selfPair (0x20000 + 8 * i)) 8) (fun p => decide (p = 0x20000 + 8 * i)) = true) ∧
    (channel 1 {} copyDesc).dmaHeadAddr 0 = selfPair 0x20000 ∧
    okB ((channel 1 {} copyDesc).dmaPlain 0 .write (selfPair 0x20000) 8) (fun p => decide (p = 0x20000)) = true ∧
    okB ((channel 1 {} copyDesc).dmaPlain 0 .write (selfPair 0x30008) 8) (fun p => decide (p = 0x30008)) = true := by decide
theorem test_dma_fetch_premises : ((dmaDescOf copyDesc 0).ctrl.getLsbD 7 = true) ∧ (channel 1 {} copyDesc).isPhase 0 (dmaDescOf copyDesc 0) = false ∧
    (channel 1 {} copyDesc).descBad (dmaDescOf copyDesc 0) = false ∧
    ((channel 1 {} copyDesc).ctlPut 0x100000 2 1 1).isPhase 0 { dmaDescOf copyDesc 0 with ctrl := word (0x81 + 2 ^ 13) } = true ∧
    (channel 1 {} copyDesc).frameBad (dmaDescOf copyDesc 0) = false ∧ (dmaDescOf copyDesc 0).op = 1 := by decide
theorem test_dma_fetch_runs : (after (.dmaDescriptorFetch 0 (0, .data [])) (channel 1 { look := true } copyDesc)).dmaState 0 = 2 := by decide
def copying : State := channel 2 { desc := some (dmaDescOf copyDesc 0) } copyDesc
theorem test_copy_premises : copying.farAway (dmaDescOf copyDesc 0).src = false ∧ (dmaDescOf copyDesc 0).srcs.flatMap pieces = [(selfPair 0x2000, 16)] ∧
    (okB (copying.dmaSlot 0 .read (selfPair 0x2000) 16) (fun z => z.1 == 0x2000)) = true ∧ (okB (copying.dmaSlot 0 .write (selfPair 0x3000) 16) (fun z => z.1 == 0x3000)) = true ∧
    overlaps (copying.dmaPhys 0 .write (dmaDescOf copyDesc 0).dsts) (copying.dmaPhys 0 .read (dmaDescOf copyDesc 0).srcs) = [] ∧
    (dmaDescOf copyDesc 0).ctrl.getLsbD 12 = false ∧ copying.dmaLevel 0 = 0 := by decide
theorem test_nop_records : ((after (.dmaNop 0) (channel 2 { desc := some { dmaDescOf copyDesc 0 with ctrl := 0x80#36 } } [])).dmaX 0).record.map
    (fun r => (r.w2, r.status)) = some (0#36, 0) := by decide
theorem test_phase_premises : let d := { dmaDescOf copyDesc 0 with ctrl := word (0x81 + 2 ^ 13 + 1 * 2 ^ 24) }
    let s : State := { channel 3 { desc := some d, waits := some (0, 0) } copyDesc with sched := scheduled.sched, tickCount := 1#72 }
    s.schedNow = some (0, 0) ∧ s.frameBad d = false ∧ s.descBad d = false ∧
      startPoint 0 (s.schedLen 0) (d.ctrl.extractLsb' 24 12).toNat (d.ctrl.extractLsb' 14 10).toNat (0, 0) false = (1, 0) := by decide
theorem test_record_premises : let s := channel 2 { record := some ⟨1#36, 0#36, 0#36, 0#36, 0, some 0x91#36⟩ } copyDesc
    s.dmaFull 0 = false ∧ s.cellKey 0x30000 = some 0x30000 ∧ s.cellKey 0x30008 = some 0x30008 ∧ s.cellKey 0x20000 = some 0x20000 ∧ (0x91#36 : Word).getLsbD 4 = true := by decide

/-! ## The fabric -/

/-- A device of shape 4 × 1 × 1 × 1 × 1 at coordinate 0, with id 0, ports 0 and 1 in a port state, and a fabric state. -/
def ring4 (fab port : Nat) : State :=
  ctlOf [(0x00, 2#36), (0x08, 6#36), (0x200000, 3#36), (0x200008, word fab), (0x200010, word (2 ^ 14)), (0x200018, 1#36), (portOff 0 8, word port), (portOff 1 8, word port),
         (0x200050, 3#36)]
theorem test_port_premises : (ring4 1 0).portUsed 0 = true ∧ (ring4 1 0).portState 0 = 0 ∧ (ring4 1 0).fabState = 1 ∧ (ring4 1 0).ctlFld (portOff 0 0) 0 1 = 0 ∧
    (ring4 1 2).portUp 0 = true ∧ (ring4 1 12).portState 0 = 4 ∧ (ring4 1 12).ctlFld (portOff 0 8) 3 3 = 1 ∧
    stepCoord (ring4 1 1).shape (ring4 1 1).coord 0 = 1 ∧ (ring4 1 1).nbrId 1 = 3 := by decide
theorem test_bringup_starts : ((after (.portBringup 0) (ring4 1 0)).portX 0).phase = 1 ∧ (after (.portBringup 0) (ring4 1 0)).portState 0 = 1 := by decide
theorem test_hello_premises : (((ring4 1 1).modPortX 0 (fun x => { x with phase := 4, hello := 2 })).portX 0).phase = 4 ∧
    (((ring4 1 1).modPortX 0 (fun x => { x with phase := 5 })).portX 0).phase = 5 := by decide
theorem test_hello_leads_to_delay : ((after (.linkHello 0 1 1 1 1) ((ring4 1 1).modPortX 0 (fun x => { x with phase := 4 }))).portX 0).phase = 5 := by decide
theorem test_sixteenth_probe : (after (.delayProbe 0 (.echo 100)) ((ring4 1 1).modPortX 0 (fun x => { x with phase := 5, probes := List.replicate 15 100 }))).portState 0 = 2 := by decide
theorem test_phase_fails_third_time :
    (after (.bringupPhaseTimeout 0 2) ((ring4 1 1).modPortX 0 (fun x => { x with phase := 2, attempts := 2 }))).portState 0 = 4 := by decide

/-- A packet for device 1 with 8 bytes, and the flit that carries it whole. -/
def pkt (dest : Nat) : Packet := { dest := dest, src := 1, dflow := 0, sflow := 2, pseq := 3, typ := 0, len := 8 }
def flit0 : Flit := { seq := 0, vc := 1, sop := true, eop := true, payload := packetBytes (pkt 1) ++ List.replicate 228 7#8 }
set_option maxRecDepth 100000 in
theorem test_flit_is_read : flitRead (flitBytes flit0) = some flit0 := by decide
set_option maxRecDepth 20000 in
theorem test_flit_premises : flit0.idle = false ∧ flit0.vc < 5 ∧ flit0.seq = ((ring4 3 2).portX 0).rxSeq ∧ ((ring4 3 2).portX 0).queue = [] ∧
    typeKnown (pkt 1).typ = true ∧ linkLocal (pkt 1).typ = false ∧ packetOfBytes flit0.payload = pkt 1 ∧ flitsOf (pkt 1) = 1 ∧ flit0.payload.length = 244 := by decide
theorem test_route_premises : (ring4 3 2).portsIdle = false ∧ (ring4 3 2).routeOf 3 none (some (0, 1)) = some (1, 2, none) ∧ (ring4 3 2).routable 1 = true ∧
    (ring4 3 2).portX 1 = {} ∧ (ring4 3 2).slotRuns 1 = none ∧ ((ring4 3 2).ctlSet 0x200050 0#36).routeOf 3 none (some (0, 1)) = none ∧
    ((ring4 3 2).arbX 455).lock = none ∧ (ring4 3 2).inFabric = true := by decide
theorem test_bad_check_is_counted : (after (.flitReceive 0 ([], none)) (ring4 3 2)).ctlFld (portOff 0 0x20) 0 12 = 1 := by decide
theorem test_credit_premises :
    let there : OutPkt := { vc := 2, packet := pkt 1, body := List.replicate 8 7#8, arrive := some (0, 1), input := 0 }
    ((ring4 3 2).modPortX 1 (fun x => { x with credit := [(2, 1)] })).canGo 1 there = true ∧ Tbl.get 0 ((ring4 3 2).portX 1).credit 2 = 0 := by decide
theorem test_retrained_premises : let s := (ring4 3 3).modPortX 0 (fun x => { x with phase := 6, nbrIn := true, rejoin := some none })
    s.portState 0 = 3 ∧ (s.portX 0).phase = 6 ∧ (s.portX 0).nbrIn = true ∧ (s.portX 0).rejoin.isSome = true ∧ s.fabId < s.nbrId 0 := by decide
theorem test_eighth_nak_retrains : (after (.nak 0 5) ((ring4 3 2).modPortX 0 (fun x => { x with naks := (5, 7) }))).portState 0 = 3 := by decide
theorem test_credit_adds : Tbl.get 0 ((after (.credit 0 [0, 64]) (ring4 3 2)).portX 0).credit 1 = 64 := by decide

theorem test_membership_premises : (ring4 2 2).admitOk = true ∧ (ring4 2 2).portsSettled = true ∧ (ring4 2 2).upPorts = [0, 1] ∧ (ring4 2 2).ctlFld 0x200008 3 1 = 0 ∧
    (ring4 2 2).fab.leaveAt = none ∧ (ring4 0 0).ctlFld 0x200010 14 1 = 1 ∧ (ring4 4 2).activeFlows = [] ∧
    (ring4 10 2).tickDue ((ring4 10 2).ctlGet 0x200040) = true ∧ (ring4 10 2).ctlFld 0x200008 3 1 = 1 := by decide
set_option maxRecDepth 20000 in
theorem test_training_done : (after .trainingDone (ring4 1 2)).fabState = 2 := by decide
set_option maxRecDepth 20000 in
theorem test_admit_at_tick : (after .admitAtTick (ring4 10 2)).fabState = 3 := by decide
set_option maxRecDepth 20000 in
theorem test_drain_starts : (after (.fabDrain .alidade) (ring4 3 2)).fabState = 4 := by decide
theorem test_leave_premises : ({ ring4 4 2 with fab := { leaveAt := some 0 } } : State).fab.leaveAt = some 0 := by decide
theorem test_leave : (after .leaveAtTick { ring4 4 2 with fab := { leaveAt := some 0 } }).fabState = 5 := by decide
theorem test_seed_premises : ((ring4 2 2).ctlPut 0x200028 0 1 1).ctlFld 0x200028 0 1 = 1 ∧ (ring4 2 2).ctlFld 0x200008 4 1 = 0 ∧
    (ring4 2 2).ctlFld 0x200028 1 8 ≤ 255 := by decide
theorem test_notice_premises : sameNotice (noticeOf 5 0 0 9) (noticeOf 5 0 0 9) = true ∧ noticeKind (noticeOf 5 3 2 9) = 3 ∧
    ({ ring4 3 2 with fab := { due := [(noticeOf 5 0 0 0, none)] } } : State).tickDue (noticeTick (noticeOf 5 0 0 0)) = true ∧
    (ring4 3 2).fab.routeTick ≠ ({ ring4 3 2 with tickCount := 4#72 } : State).now := by decide
theorem test_flood_is_recorded : (after (.flood 0 [noticeOf 5 0 0 9]) (ring4 3 2)).fab.due = [(noticeOf 5 0 0 9, none)] := by decide
theorem test_best_premises : let s := (ring4 3 2).modPortX 0 (fun x => { x with best := some (7, 2) })
    s.bestOf.isSome = true ∧ (0 : Nat) ∈ s.upPorts ∧ s.fab.held.contains 7 = false := by decide
theorem test_lost_premises : (((ring4 3 3).modPortX 0 (fun x => { x with leftUp := true })).portX 0).leftUp = true := by decide

/-- The same device with flow context 2 toward device 1, context 9, in a state. -/
def flowOf (fab st : Nat) : State := ((ring4 fab 2).ctlSet (flowOff 2 0) (word st)).ctlSet (flowOff 2 8) (word (1 + 9 * 2 ^ 14))
theorem test_flow_premises : (flowOf 3 0).flowState 2 = 0 ∧ (flowOf 3 4).flowOut 2 = 0 ∧ (flowOf 3 4).flowDev 2 = 1 ∧ (flowOf 3 4).flowPeer 2 = 9 ∧
    (flowOf 3 4).inFabric = true ∧ (flowOf 2 4).inFabric = false ∧ (flowOf 2 4).fab.refusals < (flowOf 2 4).ctlFld 0x200030 0 12 ∧
    (flowOf 3 3).tickDue ((flowOf 3 3).ctlGet (flowOff 2 0x20)) = true ∧ ((flowOf 3 3).flowX 2).ownWait = false ∧
    ((flowOf 3 2).flowX 2).sentAt + (flowOf 3 2).ctlFld 0x200030 24 4 ≤ 100 := by decide
theorem test_flow_listens : (after (.flowCmdListen .alidade 2) (flowOf 3 0)).flowState 2 = 1 := by decide
set_option maxRecDepth 20000 in
theorem test_flow_opens : (after (.flowCmdOpen .alidade 2) (flowOf 3 0)).flowState 2 = 2 := by decide
set_option maxRecDepth 20000 in
theorem test_flow_accepts : (after (.flowOpen 1 9 2) (flowOf 3 1)).flowState 2 = 4 := by decide
set_option maxRecDepth 20000 in
theorem test_flow_closes : (after (.flowCmdClose .alidade 2) (flowOf 3 4)).flowState 2 = 0 ∧ (after (.flowClose 1 2) (flowOf 3 4)).flowState 2 = 6 := by decide

/-! ## Collectives -/

/-- Queue 0 enabled and RUNNING, its ring at 0x20000, with a NOP descriptor at HEAD; group 0 is valid. -/
def engine : State :=
  { ctlOf [(0x70000, 1#36), (ceOff 0 0, word (2 * 2 ^ 3)), (ceOff 0 0x18, 1#36), (ceOff 0 0x20, 0x20000#36), (ceOff 0 0x28, 0x400000#36), (cgOff 0 0, 0x20#36)] with
    ce := { look := [(0, true)] }, mem := memWrite [] 0x20000 (wordBytes 0x80#36) }
theorem test_queue_premises : engine.ctlFld 0x70000 0 1 = 1 ∧ engine.ctlFld (ceOff 0 0x18) 0 2 = 1 ∧ Tbl.get false engine.ce.look 0 = true ∧
    okB (engine.ceWords (engine.cePair 0 0x20) 8) (fun l => (l.getD 0 0#36).getLsbD 7) = true ∧ engine.ctlDenied 0 (ceOff 0 8) = false := by decide
theorem test_nop_is_listed : (after (.ceNop 0) engine).ce.buckets.map (fun b => b.status) = [some 0] := by decide
theorem test_queue_stops : (after (.ceQueueStop .alidade 0) engine).ctlFld (ceOff 0 0x18) 0 2 = 0 := by decide
theorem test_shard_advances : (after (.shAdv .alidade 3 9#36) engine).ctlGet (shOff 3 0x10) = 9#36 := by decide
theorem test_shard_premises : (engine.ctlGet (shOff 3 0)).getLsbD 1 = false ∧ ((engine.ctlSet (shOff 3 0) 2#36).ctlGet (shOff 3 0)).getLsbD 1 = true ∧
    engine.tickDue (engine.ctlGet (shOff 3 0x20)) = true := by decide

def blk (v : Nat) : CBlock := { hdr := 0#64, m := List.replicate 32 (BitVec.ofNat 24 v) }
theorem test_block_premises : residueOf (blk 0).ms = (blk 0).vernier ∧ residueOf (blk 1).ms ≠ (blk 1).vernier ∧ (blk 0).exp = 0 ∧ (blk 0).cnt = 0 ∧
    (∀ x, x ∈ (blk 1).ms.zip (blk 2).ms → mantOk (x.1 + x.2) = true) := by decide
theorem test_blocks_add : (combine 0 0 (blk 1) (blk 2)).ms = List.replicate 32 3 := by decide
def bucket0 (o : Nat) : CeBucket := { id := 0, ctrl := word o, group := 0, bucket := 0, step := 0 }
theorem test_bucket_premises : ({ engine with ce := { buckets := [bucket0 1] } } : State).ceFind 0 0 0 = some (bucket0 1) ∧ (bucket0 1).contrib = .pending ∧
    (bucket0 1).reduces = true ∧ (bucket0 2).op = 2 ∧ (bucket0 1).status = none ∧ (bucket0 1).hdr.getLsbD 17 = false ∧
    ({ engine with ce := { buckets := [{ bucket0 1 with contrib := .backupWait }] } } : State).ctlFld (cgOff 0 0) 6 2 = 0 ∧
    ((engine.ctlPut (cgOff 0 0) 6 2 3).ctlFld (cgOff 0 0) 6 2 = 3) := by decide
theorem test_deadline_drops : let s : State := { engine.ctlPut (cgOff 0 0) 6 2 1 with ce := { buckets := [{ bucket0 1 with past := true }] } }
    ((after (.bucketDeadline 0 0 0 [] 0) s).ceGroup 0).lateStep = some 0 := by decide
theorem test_lost_member_ends : let s : State := { engine.ctlSet (cgOff 0 0x18) 0#36 with ce := { buckets := [bucket0 1] } }
    s.ceFind 0 0 0 = some (bucket0 1) ∧ (bucket0 1).begun = true := by decide

/-- The first device of a ring of 4 in group 0 along it, with flows 2 and 3 toward its neighbours, and a REDUCE_SCATTER bucket of one block a member. -/
def ringed : State :=
  let s := (((ring4 3 2).ctlSet (cgOff 0 0) (word (0x21 + 2 * 2 ^ 12))).ctlSet (flowOff 2 0) 4#36).ctlSet (flowOff 2 8) (word (1 + 9 * 2 ^ 14))
  { (s.ctlSet (flowOff 3 0) 4#36).ctlSet (flowOff 3 8) (word (3 + 9 * 2 ^ 14)) with ce := { buckets := [{ bucket0 1 with segs := [1, 1, 1, 1] }] } }
theorem test_collective_packet_premises : ringed.flowState 3 = 4 ∧ ringed.inFabric = true ∧ ringed.rxExpect 3 = 0 ∧ (ringed.flowX 3).held = [] ∧
    (ringed.ceFind 0 0 0).isSome = true ∧ ringed.ceInput (ringed.geo 0 [1, 1, 1, 1]) 0 3 = some (0, false) ∧
    (let g := ringed.geo 0 [1, 1, 1, 1]
     g.held 0 1 = true ∧ g.minus 0 1 = false ∧ g.digit 0 g.rank ≠ g.start 0 1 ∧ g.digit 0 g.rank ≠ g.digit 0 (g.owner 1)) ∧ ringed.ce.unsent = [] := by decide
theorem test_descriptor_premises :
    let l : List Word := [0x81#36, 0x40000#36, 0x400000#36, 0x50000#36, 0x400000#36, 128#36, 0#36, 0#36]
    let b : CeBucket := { id := 0, ctrl := 0x81#36, dst := selfPair 0x50000, len := 128, arg := selfPair 0x40000, group := 0, bucket := 0, step := 0 }
    let s : State := { ringed with mem := memWrite [] 0x20000 (l.flatMap wordBytes) }
    okB (s.ceWords (selfPair 0x20000) 8) (fun w => decide (w = l)) = true ∧ s.ceBadDesc b 0#36 = false ∧
    okB (s.ceWords (selfPair 0x40000) 8) (fun w => decide (w = List.replicate 8 0#36)) = true ∧
    okB (s.ceSegs b (s.geo 0 []).size) (fun g => decide (g = [1, 1, 1, 1])) = true ∧ s.ceBad b (List.replicate 3 0#36) [1, 1, 1, 1] = false := by decide
theorem test_backup_premises : ({ ringed with ce := { buckets := [{ bucket0 1 with contrib := .backupWait, segs := [1, 1, 1, 1] }] } } : State).ceFind 0 0 0 =
    some { bucket0 1 with contrib := .backupWait, segs := [1, 1, 1, 1] } ∧ ringed.ce.kept = [] ∧ (bucket0 1).misrank = none ∧ (bucket0 1).copy = [] := by decide

/-! ## Resilience, Ranas and management -/

/-- The Ephemeris in a mode with the ring allocated; `st` is EPH_STATUS beside MODE. -/
def eph (mode st : Nat) : State := ctlOf [(0x08, 6#36), (0x60000, word mode), (0x60008, word (mode + st)), (0x60010, word (1 + 2 ^ 14))]
theorem test_record_premises2 : (eph 1 0).ephMode = 1 ∧ (eph 1 0).ephOpen = false ∧ (eph 1 4).ephOpen = true ∧ (eph 1 0).eph.openReq = none ∧
    (eph 1 4).ctlFld 0x60010 14 1 = 1 ∧ (0x10005#36 : Word).getLsbD 16 = true ∧ (eph 1 4).ctlDenied 0 0x60028 = false ∧ (eph 1 4).region ((eph 1 4).ringBase) = .gddr ∧
    (eph 1 4).tickAhead 3#36 = some 3 ∧ (eph 2 0).ctlFld 0x60000 2 1 = 0 := by decide
theorem test_commit_closes : (after .stepCommit { eph 1 4 with eph := { commitAt := some 0 } }).ephOpen = false := by decide
theorem test_replay_without_record : (after .recordOpen { eph 2 0 with eph := { openReq := some (5, 0) }, tickCount := 1#72 }).ephOpen = false := by decide
theorem test_rollback_premises : let s : State := { eph 1 4 with eph := { rollback := some (5, 0) } }
    s.eph.rollback = some (5, 0) ∧ 0 ≤ s.now ∧ ({ s with variant := .m9220, eph := { abortAt := some 0 } } : State).eph.rollback = none := by decide
theorem test_budget_premises : let s : State := (eph 1 4).ctlSet 0x60058 (word (1 + 3 * 2))
    s.ctlFld 0x60058 0 1 = 1 ∧ s.eph.expiredDone = false ∧ s.ctlFld 0x60058 1 20 ≤ 3 := by decide
theorem test_lineage : let s : State := { (one core0).ctlSet 0x61000 5#36 with eph := { searches := [0] } }
    s.eph.searches.contains 0 = true ∧ s.linHits (s.ctlFld 0x61000 0 32) = [] ∧ ((s.ctlSet 0x40000 0#36).ctlSet 0x40008 (word (9 + 2 ^ 24))).linHits 5 = [0] := by decide
theorem test_digest_premises : let s : State := { eph 1 4 with eph := { digest := some (0x2000, 8, 1) } }
    s.eph.digest = some (0x2000, 8, s.eph.openTick + 1) ∧ s.readErr 0x2000 8 = none ∧ s.ctlFld 0x60008 3 1 = 0 := by decide
theorem test_recovery_premises : ((eph 1 4).ctlGet 0x60058).getLsbD 0 = false ∧ (1#36 : Word).getLsbD 0 = true := by decide

def ready : State := ({} : State).barSet 0x04 2#32
theorem test_core_reset_premises : (({ ready with cores := [(0, { core0 with run := .frozen })] } : State).core 0).run = .frozen ∧
    ({ ready with thirdFault := [(0, 1)] } : State).thirdFaultAgain 0 = true ∧ ready.thirdFaultAgain 0 = false ∧ ready.booted = true ∧
    (ready.core 0).run = .atReset ∧ ready.isRetired 0 = false := by decide
set_option maxRecDepth 20000 in
theorem test_core_restarts : (after (.coreResetSequence 0) { ready with cores := [(0, { core0 with run := .frozen })] }).core 0 = Core.reset := by decide
theorem test_fatal_premises : ready.ranasState ≠ 3 ∧ ready.ranas.fatal = none ∧ ({ ready with ranas := { fatal := some (1, 0, 0) } } : State).coresQuiet = true := by decide
theorem test_power_premises : State.reset.ranas.powered = false ∧ State.reset.bootPick.isSome = true ∧
    ({ State.reset with ranas := { powered := true, reset := (2, 0) } } : State).resetDue 2 = true ∧ State.reset.ranas.gddrBad = [] ∧
    ({ State.reset with ranas := { reset := (1, 0) } } : State).resetDue 1 = true ∧ State.reset.clockStep < 1 := by decide
theorem test_clock_steps : (after (.throttleStepDown 2 1) State.reset).mhz = 705 := by decide

/-- A module at READY whose mailbox 0 has posted a command. -/
def posted (op : Nat) (par : List Byte) : State :=
  let len := ((cmdRows.find? (fun c => c.op == op)).map (fun c => c.len)).getD 0
  { ready with ranas := { posts := [{ mbox := 0, op := op, plen := len, seq := 7, par := par ++ List.replicate (124 - par.length) 0#8 }] } }
def postOf (s : State) : Post := s.ranas.posts.headD ⟨0, 0, 0, 0, [], 0⟩
def postedB (s : State) (n op : Nat) : Bool := (s.nextPost == some (postOf s)) && (postOf s).mbox == n && (postOf s).op == op && s.cmdCheck (postOf s) == 0
theorem posted_of {s : State} {n op : Nat} (b : postedB s n op = true) : s.Posted (postOf s) n op := by
  simp only [postedB, Bool.and_eq_true, beq_iff_eq] at b
  exact ⟨b.1.1.1, b.1.1.2, b.1.2, b.2⟩
theorem test_every_command_can_be_posted : ∀ op, op ∈ [0x0001, 0x0002, 0x0003, 0x0010, 0x0011, 0x0020, 0x0021, 0x0022, 0x0023, 0x0024, 0x0030, 0x0032, 0x0040,
    0x0041, 0x0042, 0x0043, 0x0044, 0x0050, 0x0051, 0x0052, 0x0060, 0x0061, 0x0062, 0x0063] → (posted op []).Posted (postOf (posted op [])) 0 op := by
  intro op ho
  apply posted_of
  revert op ho
  decide
theorem test_fabric_control_can_be_posted : (posted 0x0031 [8#8, 9#8]).Posted (postOf (posted 0x0031 [8#8, 9#8])) 0 0x0031 := posted_of (by decide)
theorem test_post_premises : (posted 0x0999 []).ranas.posts.length = 1 ∧ (posted 0x0999 []).ranasState = 2 ∧ (posted 0x0999 []).ranas.done = [] ∧
    cmdRows.all (fun c => c.op != 0x0999) = true ∧ (ready.barGet 0x10004).toNat % 4 = 0 := by decide
theorem test_unknown_opcode_is_refused : (after (.commandComplete 0) (posted 0x0999 [])).barGet 0x100C0 = 0x30007#32 := by decide
theorem test_doorbell_posts : (after (.mbxDoorbell 3) ready).ranas.posts.map (fun p => p.mbox) = [3] := by decide
theorem test_result_premises : let s : State := { ready with ranas := { done := [⟨0, 7, 1, 0, []⟩] } }
    s.ranas.done.find? (fun d => d.mbox == 0) = some ⟨0, 7, 1, 0, []⟩ := by decide
theorem test_remote_timeout_is_set : (after (.remoteTimeout 0) (posted 0x0042 [0xE8#8, 3#8])).remoteTimeout = 1000 := by decide
theorem test_schedule_command_premises : ready.schedLen 0 = 0 ∧ ({ ready with sched := scheduled.sched } : State).schedLen 0 = 2 ∧
    ready.readErr 0x100000 (192 * 32) = none ∧ ready.region 0x10000 = .gddr ∧ ready.schedNow = none ∧ (queued.core 0).tickTop = false := by decide
theorem test_runtime_premises : let s : State := { ready with cores := [(0, { core0 with run := .idle })] }
    s.startable 0 = true ∧ ((s.core 0).getMreg 0x1F).getLsbD 8 = false := by decide
theorem test_fabric_command_premises : ready.ctlFld 0x200000 35 1 = 0 ∧ shapeOk ready.variant 1 = true ∧ coordOk 1 2 = true ∧ ready.regTakes 0x200028 (ready.ctlGet 0x200028) = true ∧
    ready.regTakes 0x00 (ready.ctlGet 0x00) = true ∧ ready.regTakes 0x10 900000#36 = true ∧ ready.regTakes 0x200030 (ready.ctlGet 0x200030) = true := by decide
theorem test_memory_command_premises : ready.variant.hubSlots ≠ 0 ∧ ready.cxlRanges = [] ∧ 2 ^ 42 + 2 ^ 30 ≤ 2 ^ 44 ∧ (eph 1 4).ctlFld 0x60008 5 16 = 0 ∧
    (ready.barGet 4).getLsbD 5 = false ∧ ready.ranas.updating = false ∧ ready.semHost.length < 256 ∧ ready.imageCheck [] = 1 ∧ ready.tokenCheck [] = 1 ∧
    ready.otherNo = 1 := by decide

theorem test_command_edges : ready.region (coreWindow 0 + 64) = .ls 0 64 ∧ ready.cxlSlots ≤ ready.variant.hubSlots ∧
    leAt (postOf (posted 0x0022 [5#8])).par 0 8 = 5 ∧ (postOf (posted 0x0022 [5#8])).tick = 0 ∧
    leAt (postOf ({ posted 0x0022 [5#8] with ranas := { posts := [{ postOf (posted 0x0022 [5#8]) with tick := 5 }] } })).par 0 8 = 5 ∧
    Tbl.get 0 ({ ready with semHost := [(3, 9)] } : State).semHost 3 ≠ 0 := by decide

theorem test_spdm_premises : ready.spdmStage 0 = 0 ∧ ({ ready with ranas := { spdm := [(1, 3)] } } : State).spdmStage 1 = 3 ∧
    (∀ d, d ∈ ready.ranas.done → d.op ≠ 0x0060) := by decide
theorem test_sensor_reads_clock : after (.pldmSensorRead 11) State.reset = State.reset.emit (.answer 0 0 (bytesOf 940 4)) := by decide

/-- A module with every debug permission and core 0 halted. -/
def debugged : State := { one { core0 with eyeHalt := true } with ranas := { token := some 31 } }
theorem test_eyepiece_premises : (BitVec.ofNat 32 31).getLsbD 4 = true ∧ debugged.ranas.token = some 31 ∧ (debugged.core 0).eyeHalt = true ∧ (debugged.core 0).eyeStep = false ∧
    debugged.isRetired 0 = false ∧ State.reset.ranas.token = none ∧ 0x2000 + 8 ≤ debugged.variant.gddrEnd ∧ debugged.readErr 0x2000 8 = none ∧
    (({ debugged with cores := [(0, { coreB with eyeHalt := true })] } : State).core 0).aset 2 = coreB.aset 2 ∧ 1 < (coreB.aset 2).n := by decide
theorem test_eyepiece_reads : after (.readState 0 0x102) debugged = debugged.emit (.answer 2 0 (wordBytes 7#36)) := by decide
theorem test_eyepiece_refuses : after (.halt 0) (one core0) = (one core0).emit (.answer 2 1 []) := by decide

/-! ## WellFormed refuses ill-formed terms -/
theorem test_wf_refuses : ∀ c : Instr, c ∈ [
    .nop { core := 192 }, .nop { core := 0, bytes := some [0x00#8] }, .requestAdmit 0 0x40 false (0, { addr := 0#72, level := 3 }),
    .requestAdmit 0 0x40 false (0, { addr := 0#72, kind := .reg 128 }), .deferredErrorReport 0 true 0 3 0 0 (3, 0#72), .mulResultLand 192, .mbxDoorbell 64, .slotEnd 10, .slotStart 0 1024, .tickCountLoRead (.core 192), .tickCountLoRead (.dma 256),
    .flowCmdOpen .alidade 16384, .flowOpen 16384 0 0, .dmaNop 256, .dmaDescriptorFetch 0 (1024, .data []), .getVersion 2, .ceNop 8, .partTake 64 0 0, .locklong 465,
    .gddr7Refresh 16 [], .tcOpDone 4 [], .cxlExpanderDown 2, .shHoldExpiry 512, .semCountUpdate .alidade 4096 0 0#36 0#36, .cmbxPost .alidade 256 0 0#36,
    .cmbxPost .alidade 0 8 0#36, .linFind .alidade 192 0#36] → c.wf = false := by decide
theorem test_wf_accepts : ∀ c : Instr, c ∈ [
    .nop { core := 191 }, .nop { core := 0, bytes := some [0xD9#8] }, .requestAdmit 0 0x40 false (0, { addr := 0#72 }), .mbxDoorbell 63, .slotStart 9 1023, .tickCountLoRead (.dma 255), .flowOpen 16383 16383 16383, .getVersion 1, .ceNop 7,
    .partTake 63 0 0, .locklong 464, .gddr7Refresh 15 [], .semCountUpdate .alidade 4095 0 0#36 0#36, .cmbxPost .host 255 7 0#36] → c.wf = true := by decide

/-! ## Encodings: the spec's own examples, and bytes that no rule makes an instruction -/

def decodesTo (l : List Byte) (c : Instr) : Bool := match decodeBytes 0 l with | .instr i n => decide (i = c) && n == l.length | _ => false

/-- The examples of 04_scalar_instructions, 06_vector_engine, 07_plates and 08_matrix_array. -/
theorem test_encodings_of_the_spec :
    decodesTo [0xDA#8, 0x02#8, 0x03#8, 0xA0#8, 0x86#8, 0x01#8, 0x00#8, 0x00#8] (.li x0 3#5 (.long 100000#36)) = true ∧
    decodesTo [0x78#8, 0x03#8, 0x04#8] (.mul x0 3#5 4#5) = true ∧ decodesTo [0x7C#8, 0x06#8] (.rdmpl x0 6#5) = true ∧
    decodesTo [0x10#8, 0x07#8, 0x07#8, 0x08#8] (.add x0 7#5 7#5 8#5) = true ∧
    decodesTo [0xC9#8, 0xE4#8, 0x41#8, 0x02#8, 0x01#8] (.vrmax { x0 with mask := some (false, 1#3) } 2#5 1#5) = true ∧
    decodesTo [0xD1#8, 0xE4#8, 0x02#8, 0x07#8, 0x04#8, 0x06#8] (.vmul { x0 with mask := some (true, 1#3) } 7#5 4#5 6#5) = true ∧
    decodesTo [0xE8#8, 0x08#8, 0x02#8, 0x03#8, 0x07#8] (.pld x0 2#5 3#4 7#5) = true ∧
    decodesTo [0xE8#8, 0x24#8, 0x09#8, 0x05#8, 0x0C#8] (.mma x0 9#5 5#5 12#5) = true := by decide

/-- A reserved prefix, a prefix class twice, an unassigned opcode, LIMM that an opcode does not permit, and a register byte above 31. -/
theorem test_illegal_bytes : illegalBytes [0xD9#8] = some 0 ∧ illegalBytes [0xC0#8, 0xC1#8] = some 1 ∧ illegalBytes [0xBF#8] = some 0 ∧
    illegalBytes [0xDA#8, 0x01#8] = some 1 ∧ illegalBytes [0x01#8, 0x20#8] = some 1 := by decide

theorem test_illegal_bytes_trap : after (.nop { x0 with bytes := some [0xD9#8] }) (one core0) = (one core0).trapped 0 0x01 0#36 0#72 := by decide

/-! ## decodeTableWord, and the queue -/

theorem test_no_row_gives_bits (n w : Nat) : decodeTableWord n w = none := rfl
theorem test_step_idles : step State.reset = .next State.reset := rfl

end Sys2Proof.Tests
end

section
/-!
SUPPORT. What every command keeps (SPEC "one command at a time"): the queue, the variant of R5, and the canonical form of
memory. One relation holds between the state before and every state on the way; each function of the model has one lemma,
which says that it keeps the relation, and the proof of a command is the chain of the functions it calls.
-/
namespace Sys2Proof.Machine

/-- What every command keeps, from the state `s` it began in to a state `t` it reaches. -/
structure State.Keeps (s t : State) : Prop where
  pending : t.pending = s.pending
  variant : t.variant = s.variant
  memWf : Memory.wf s.mem = true → Memory.wf t.mem = true

/-- The same of what a command ends in. -/
def State.KeepsOut (s : State) : Out → Prop
  | .next t => s.Keeps t
  | _ => True

/-- The same of what an instruction's body gives: a fault has no state of its own. -/
def State.KeepsRes (s : State) : Res → Prop
  | .next t => s.Keeps t
  | .jump t _ => s.Keeps t
  | .stay t => s.Keeps t
  | .fault _ _ _ => True
  | .access _ _ _ _ => True

/-- The same of an access, where it is performed. -/
def State.KeepsAcs (s : State) : Acs → Prop
  | .done _ t => s.Keeps t
  | _ => True

section
variable {s : State} {c : Prop} [Decidable c]

theorem State.KeepsOut.ite {a b : Out} (ha : s.KeepsOut a) (hb : s.KeepsOut b) : s.KeepsOut (if c then a else b) := by
  split <;> assumption

theorem State.KeepsRes.ite {a b : Res} (ha : s.KeepsRes a) (hb : s.KeepsRes b) : s.KeepsRes (if c then a else b) := by
  split <;> assumption

theorem State.KeepsAcs.ite {a b : Acs} (ha : s.KeepsAcs a) (hb : s.KeepsAcs b) : s.KeepsAcs (if c then a else b) := by
  split <;> assumption

end

namespace State.Keeps
variable {s t u : State}

theorem refl (s : State) : s.Keeps s := ⟨rfl, rfl, id⟩

theorem trans (h : s.Keeps t) (k : t.Keeps u) : s.Keeps u :=
  ⟨k.pending.trans h.pending, k.variant.trans h.variant, fun w => k.memWf (h.memWf w)⟩

/-- A new value of any fields but the queue, the variant and memory. -/
theorem update (h : s.Keeps t) {cores monitor thirdFault retired mxroot poison lsBad ctl tickCount tickShadow tickStage syncGood syncMissed
    syncSeen switchKnown lockReady syncStepped syncPeriod syncMaster sched clockStep tcLines l1d l1i memReqs cxlSlots remoteTimeout cxlRanges
    cxlDown remote semHost semUps arb dma fabPorts fab flows eph ce bar0 msixCtl ranas log freeCtr out} :
    s.Keeps { t with
      cores := cores, monitor := monitor, thirdFault := thirdFault, retired := retired, mxroot := mxroot, poison := poison, lsBad := lsBad
      ctl := ctl, tickCount := tickCount, tickShadow := tickShadow, tickStage := tickStage, syncGood := syncGood, syncMissed := syncMissed
      syncSeen := syncSeen, switchKnown := switchKnown, lockReady := lockReady, syncStepped := syncStepped, syncPeriod := syncPeriod
      syncMaster := syncMaster, sched := sched, clockStep := clockStep, tcLines := tcLines, l1d := l1d, l1i := l1i, memReqs := memReqs
      cxlSlots := cxlSlots, remoteTimeout := remoteTimeout, cxlRanges := cxlRanges, cxlDown := cxlDown, remote := remote, semHost := semHost
      semUps := semUps, arb := arb, dma := dma, fabPorts := fabPorts, fab := fab, flows := flows, eph := eph, ce := ce, bar0 := bar0
      msixCtl := msixCtl, ranas := ranas, log := log, freeCtr := freeCtr, out := out } :=
  ⟨h.pending, h.variant, h.memWf⟩

/-! ### The forms that a definition combines states by -/

theorem ite {c : Prop} [Decidable c] (ht : s.Keeps t) (hu : s.Keeps u) : s.Keeps (if c then t else u) := by
  split <;> assumption

theorem iteFst {α : Type} {c : Prop} [Decidable c] {p q : State × α} (hp : s.Keeps p.1) (hq : s.Keeps q.1) :
    s.Keeps (if c then p else q).1 := by
  split <;> assumption

theorem iteSnd {α : Type} {c : Prop} [Decidable c] {p q : α × State} (hp : s.Keeps p.2) (hq : s.Keeps q.2) :
    s.Keeps (if c then p else q).2 := by
  split <;> assumption

/-- Either of two results of a mailbox command. -/
theorem iteSt {c : Prop} [Decidable c] {p q : CmdRes} (hp : s.Keeps p.st) (hq : s.Keeps q.st) : s.Keeps (if c then p else q).st := by
  split <;> assumption

theorem pairFst {α : Type} {a : α} (h : s.Keeps t) : s.Keeps (t, a).1 := h

theorem pair {α : Type} {a : α} (h : s.Keeps t) : s.Keeps (a, t).2 := h

theorem fst {α : Type} {p : State × α} (h : s.Keeps p.1) {a : α} (e : p = (t, a)) : s.Keeps t := by
  subst e; exact h

theorem snd {α : Type} {p : α × State} (h : s.Keeps p.2) {a : α} (e : p = (a, t)) : s.Keeps t := by
  subst e; exact h

/-- A fold whose accumulator holds a state, which `get` gives. -/
theorem foldlOn {α β : Type} (get : β → State) {f : β → α → β} (hf : ∀ {b a}, s.Keeps (get b) → s.Keeps (get (f b a))) {l : List α}
    {b : β} (h : s.Keeps (get b)) : s.Keeps (get (l.foldl f b)) := by
  induction l generalizing b with
  | nil => exact h
  | cons a l ih => exact ih (hf h)

theorem foldl {α : Type} {f : State → α → State} (h : s.Keeps t) (hf : ∀ {u a}, s.Keeps u → s.Keeps (f u a)) {l : List α} :
    s.Keeps (l.foldl f t) :=
  foldlOn id hf h

theorem next (h : s.Keeps t) : s.KeepsRes (.next t) := h

theorem jump (h : s.Keeps t) {a : Pair} : s.KeepsRes (.jump t a) := h

theorem stay (h : s.Keeps t) : s.KeepsRes (.stay t) := h

theorem done (h : s.Keeps t) {l : List Byte} : s.KeepsAcs (.done l t) := h

/-! ### Machine/Ops -/

theorem setCore (h : s.Keeps t) {c : Nat} {k : Core} : s.Keeps (t.setCore c k) :=
  h.update

theorem modCore (h : s.Keeps t) {c : Nat} {f : Core → Core} : s.Keeps (t.modCore c f) :=
  h.setCore

theorem ctlSet (h : s.Keeps t) {o : Nat} {w : Word} : s.Keeps (t.ctlSet o w) :=
  h.update

theorem ctlPut (h : s.Keeps t) {o lo len v : Nat} : s.Keeps (t.ctlPut o lo len v) :=
  h.ctlSet

theorem ctlCount (h : s.Keeps t) {o lo len : Nat} : s.Keeps (t.ctlCount o lo len) :=
  h.ctlPut

theorem fresh (h : s.Keeps t) : s.Keeps t.fresh.2 :=
  h.update.pair

theorem emit (h : s.Keeps t) {e : Emit} : s.Keeps (t.emit e) :=
  h.update

theorem barSet (h : s.Keeps t) {o : Nat} {w : Reg32} : s.Keeps (t.barSet o w) :=
  h.update

theorem msix (h : s.Keeps t) {v : Nat} : s.Keeps (t.msix v) :=
  h.emit.ite h.barSet

theorem hostEvent (h : s.Keeps t) {b : Nat} : s.Keeps (t.hostEvent b) := by
  unfold State.hostEvent
  extract_lets _ s1
  have hs1 : s.Keeps s1 := h.barSet
  exact hs1.msix.ite hs1

theorem logAdd (h : s.Keeps t) {kind unit detail : Nat} : s.Keeps (t.logAdd kind unit detail) :=
  h.update.hostEvent

theorem machineCheck (h : s.Keeps t) {unit reason detail : Nat} : s.Keeps (t.machineCheck unit reason detail) :=
  h.logAdd

theorem signal (h : s.Keeps t) {c kind index level : Nat} : s.Keeps (t.signal c kind index level) :=
  h.logAdd.ite h.modCore

theorem event (h : s.Keeps t) {c cause : Nat} {info : Word} : s.Keeps (t.event c cause info) :=
  h.logAdd.ite h.modCore

theorem raiseBits (h : s.Keeps t) {reg evt cause : Nat} {bits : Word} : s.Keeps (t.raiseBits reg evt cause bits) := by
  unfold State.raiseBits
  extract_lets _ _ s1
  have hs1 : s.Keeps s1 := h.ctlSet
  exact h.ite (hs1.event.ite hs1)

theorem tickEvent (h : s.Keeps t) {bit : Nat} : s.Keeps (t.tickEvent bit) :=
  h.raiseBits

theorem fabEvent (h : s.Keeps t) {bit : Nat} : s.Keeps (t.fabEvent bit) :=
  h.raiseBits

theorem ceEvent (h : s.Keeps t) {bit : Nat} : s.Keeps (t.ceEvent bit) :=
  h.raiseBits

theorem semPut (h : s.Keeps t) {i : Nat} {v : Word} : s.Keeps (t.semPut i v) := by
  unfold State.semPut
  extract_lets _ s0 s1 _ s2
  have hs0 : s.Keeps s0 := h.ctlSet
  have hs1 : s.Keeps s1 := hs0.update
  have hs2 : s.Keeps s2 := hs1.ctlSet.signal.ite hs1
  exact h.ite ((hs2.update.msix.ite hs2).ite hs0)

theorem semAdd (h : s.Keeps t) {i : Nat} {v : Word} : s.Keeps (t.semAdd i v) :=
  h.semPut

theorem bumpAny (h : s.Keeps t) {l : List (Nat × Nat)} : s.Keeps (t.bumpAny l) :=
  h.foldl fun h => h.ctlSet.ite h

theorem bumpGens (h : s.Keeps t) {pa n : Nat} : s.Keeps (t.bumpGens pa n) :=
  h.bumpAny

theorem scrub (h : s.Keeps t) {k n : Nat} : s.Keeps (t.scrub k n) :=
  h.update

theorem cellsPut (h : s.Keeps t) {pa : Nat} {l : List Byte} : s.Keeps (t.cellsPut pa l) :=
  h.trans ⟨t.cellsPut_pending pa l, t.cellsPut_variant pa l, State.cellsPut_wf pa l⟩

theorem cellsPutAll (h : s.Keeps t) {ps : List (Nat × Nat)} {l : List Byte} : s.Keeps (t.cellsPutAll ps l) :=
  h.trans ⟨t.cellsPutAll_pending ps l, t.cellsPutAll_variant ps l, State.cellsPutAll_wf ps l⟩

theorem memQuiet (h : s.Keeps t) {pa : Nat} {l : List Byte} : s.Keeps (t.memQuiet pa l) :=
  h.cellsPutAll

theorem memPut (h : s.Keeps t) {pa : Nat} {l : List Byte} : s.Keeps (t.memPut pa l) :=
  h.memQuiet.bumpGens.ite h

theorem ephEvent (h : s.Keeps t) {bits : Nat} : s.Keeps (t.ephEvent bits) := by
  unfold State.ephEvent
  extract_lets _ _ s1
  have hs1 : s.Keeps s1 := h.ctlSet
  exact h.ite (hs1.semAdd.ite hs1)

theorem ephAppend (h : s.Keeps t) {typ : Nat} {payload : List Word} : s.Keeps (t.ephAppend typ payload) :=
  h.ite (h.update.ctlPut.ephEvent.ite (h.memQuiet.ite h).memQuiet.ctlPut.ctlPut)

theorem ephFault (h : s.Keeps t) {kind unit : Nat} {pa : Option Nat} : s.Keeps (t.ephFault kind unit pa) :=
  h.ephAppend

theorem memErrLog (h : s.Keeps t) {die pa src kind : Nat} : s.Keeps (t.memErrLog die pa src kind) := by
  unfold State.memErrLog
  extract_lets _ s1
  have hs1 : s.Keeps s1 := h.ctlCount.ite h
  exact hs1.ctlPut.ite hs1.ctlSet.ctlSet.ctlSet

theorem memFail (h : s.Keeps t) {src pa : Nat} : s.Keeps (t.memFail src pa) :=
  h.memErrLog.logAdd.ephFault.ite h

theorem l1Purge (h : s.Keeps t) {die line : Nat} {keep : Option Nat} : s.Keeps (t.l1Purge die line keep) :=
  h.update

theorem tcLeave (h : s.Keeps t) {die line : Nat} : s.Keeps (t.tcLeave die line) :=
  h.update.l1Purge

theorem tcLeaveAll (h : s.Keeps t) {line : Nat} : s.Keeps (t.tcLeaveAll line) :=
  h.foldl fun h => h.tcLeave

theorem dirTake (h : s.Keeps t) {die line : Nat} {write : Bool} : s.Keeps (t.dirTake die line write) :=
  (h.foldl fun h => h.tcLeave).ite h.update

/-- The line that a full set gives up. -/
theorem tcEvict (h : s.Keeps t) {c : Prop} [Decidable c] {die : Nat} {victim : Option TcLine} :
    s.Keeps (if c then t else match victim with
      | none => t
      | some v => t.tcLeave die v.line) := by
  refine h.ite ?_
  split
  · exact h
  · exact h.tcLeave

theorem tcTouch (h : s.Keeps t) {die pa : Nat} {desc : Option Nat} {page : Option PageAttr} {write : Bool} :
    s.Keeps (t.tcTouch die pa desc page write) := by
  unfold State.tcTouch
  split
  case h_3 => exact h
  all_goals
    refine .ite (h.tcLeaveAll.ite h.dirTake) ?_
    extract_lets _ s0
    have hs0 : s.Keeps s0 := h.dirTake
    split
    · exact hs0.update
    · exact hs0.ite hs0.update.tcEvict.update

theorem coreRead (h : s.Keeps t) {c pa : Nat} {page : Option PageAttr} : s.Keeps (t.coreRead c pa page) := by
  unfold State.coreRead
  extract_lets _ s1
  have hs1 : s.Keeps s1 := h.tcTouch
  exact h.ite (hs1.ite hs1.update)

theorem coreWrite (h : s.Keeps t) {c pa : Nat} {page : Option PageAttr} : s.Keeps (t.coreWrite c pa page) :=
  h.l1Purge.tcTouch

theorem agentTouch (h : s.Keeps t) {die pa : Nat} {desc : Option Nat} {page : Option PageAttr} {write : Bool} :
    s.Keeps (t.agentTouch die pa desc page write) :=
  (h.l1Purge.ite h).tcTouch

theorem atomicTouch (h : s.Keeps t) {pa : Nat} {page : Option PageAttr} : s.Keeps (t.atomicTouch pa page) :=
  h.agentTouch

theorem noteErr (h : s.Keeps t) {x : XErr} : s.Keeps (t.noteErr x) := by
  unfold State.noteErr
  split
  · exact h.memFail
  · exact h

theorem putEach (h : s.Keeps t) {pas : List Nat} {l : List Byte} : s.Keeps (t.putEach pas l) := by
  induction pas generalizing t l with
  | nil => exact h
  | cons pa r ih => exact ih h.memPut

theorem putSlots (h : s.Keeps t) {pas : List Nat} {l : List Byte} : s.Keeps (t.putSlots pas l) :=
  h.memPut.ite h.putEach

theorem thirdFaultStop (h : s.Keeps t) {c : Nat} {e : Exc} : s.Keeps (t.thirdFaultStop c e) := by
  unfold State.thirdFaultStop
  exact h.setCore.logAdd.machineCheck.ephFault

theorem doubleFault (h : s.Keeps t) {c : Nat} {e : Exc} {f : Pair} {reason : Nat} : s.Keeps (t.doubleFault c e f reason) :=
  h.thirdFaultStop.ite h.memPut.setCore

theorem noteM (h : s.Keeps t) {c lv from_ : Nat} {e : Exc} {depth : Nat} : s.Keeps (t.noteM c lv from_ e depth) :=
  h.update.ite h

theorem enter (h : s.Keeps t) {c : Nat} {e : Exc} : s.Keeps (t.enter c e) := by
  unfold State.enter
  extract_lets _ _ _ _ s'
  have hs' : s.Keeps s' := h.setCore
  refine .ite hs'.thirdFaultStop (.ite hs'.doubleFault ?_)
  split
  · exact hs'.setCore.machineCheck.ite hs'.doubleFault
  · extract_lets
    split
    · exact hs'.noteErr.doubleFault
    · exact hs'.putSlots.noteM.setCore

theorem takePending (h : s.Keeps t) {c : Nat} (e : t.takePending c = some u) : s.Keeps u := by
  unfold State.takePending at e
  split at e
  · cases e
  · cases e; exact h.setCore.enter

/-- A pending exception is taken where there is one. -/
theorem takePendingD (h : s.Keeps t) {c : Nat} (hu : s.Keeps u) : s.Keeps ((t.takePending c).getD u) := by
  cases e : t.takePending c with
  | none => exact hu
  | some v => exact h.takePending e

/-! ### Machine/Operands -/

theorem retire (h : s.Keeps t) {c : Nat} {k0 : Core} {pc : Pair} : s.Keeps (t.retire c k0 pc) :=
  h.setCore.ite (h.setCore.takePendingD h.setCore)

theorem finish (h : s.Keeps t) {c : Nat} {k : Core} {next : Pair} {r : Res} (hr : s.KeepsRes r) :
    s.Keeps (t.finish c k next r) := by
  cases r with
  | next u => exact Keeps.retire hr
  | jump u pc => exact Keeps.retire hr
  | fault cause info fa => exact h.enter
  | access e need dest fa => exact h.noteErr.enter
  | stay u => exact hr

theorem waited (h : s.Keeps t) {c : Nat} {old : List Report} {go : State → State} (hgo : ∀ {u}, s.Keeps u → s.Keeps (go u)) :
    s.Keeps (t.waited c old go) :=
  (hgo h).ite (h.takePendingD (hgo h))

theorem reuseDrop (h : s.Keeps t) {x : Issue} : s.Keeps (t.reuseDrop x) :=
  h.modCore.ite h

end State.Keeps

theorem State.KeepsRes.reuseDrop {s : State} {x : Issue} {r : Res} (h : s.KeepsRes r) : s.KeepsRes (r.reuseDrop x) := by
  cases r with
  | next u => exact State.Keeps.reuseDrop h
  | jump u pc => exact State.Keeps.reuseDrop h
  | fault cause info fa => exact trivial
  | access e need dest fa => exact trivial
  | stay u => exact State.Keeps.reuseDrop h

namespace State.Keeps
variable {s t u : State}

theorem begin (h : s.Keeps t) {x : Issue} {sh : Shape} : s.Keeps (t.begin x sh) := by
  unfold State.begin
  split
  · exact h
  · exact h.modCore

theorem awake (h : s.Keeps t) {c : Nat} : s.Keeps (t.awake c) :=
  h.ite h.modCore

theorem issueAt (h : s.Keeps t) {x : Issue} {sh : Shape} {body : State → Res}
    (hbody : ∀ {u}, s.Keeps u → s.KeepsRes (body u)) :
    s.Keeps (t.issueAt x sh body) := by
  unfold State.issueAt
  extract_lets _ _ ill want
  clear_value want ill
  split
  · exact h.noteErr.enter
  · split
    · exact h.enter
    · exact h.begin.waited fun h => (h.finish (hbody h).reuseDrop)

theorem stepEnd (h : s.Keeps t) {c : Nat} : s.Keeps (t.stepEnd c) :=
  h.modCore.takePendingD h.modCore

theorem issue (h : s.Keeps t) {x : Issue} {sh : Shape} {body : State → Res} (hbody : ∀ {u}, s.Keeps u → s.KeepsRes (body u)) :
    s.Keeps (t.issue x sh body) := by
  unfold State.issue
  extract_lets
  refine .ite h (.ite (h.awake.issueAt hbody).stepEnd (.ite h ?_))
  split
  · next e => exact h.takePending e
  · exact h.ite (h.awake.issueAt hbody)

theorem issueCore (h : s.Keeps t) {x : Issue} {sh : Shape} {f : Core → Core} : s.Keeps (t.issueCore x sh f) := by
  unfold State.issueCore
  exact h.issue fun h => h.modCore

/-! ### Machine/Arb -/

theorem setArbX (h : s.Keeps t) {i : Nat} {x : ArbX} : s.Keeps (t.setArbX i x) :=
  h.update

theorem arbEvent (h : s.Keeps t) {i : Nat} {starve lockLong : Bool} {input : Nat} :
    s.Keeps (t.arbEvent i starve lockLong input) := by
  unfold State.arbEvent
  extract_lets s1 _ s3
  have hs1 : s.Keeps s1 := h.ctlCount.ite h
  have hs3 : s.Keeps s3 := (hs1.ctlCount.ite hs1).logAdd
  exact hs3.semAdd.ite hs3

theorem arbStat (h : s.Keeps t) {i : Nat} : s.Keeps (t.arbStat i) := by
  unfold State.arbStat
  extract_lets _ _ s1
  have hs1 : s.Keeps s1 := h.ctlPut
  split
  · exact hs1.ctlPut.ctlPut
  · exact hs1.ctlPut

theorem arbDecide (h : s.Keeps t) {i : Nat} {heads : List ArbReq} : s.Keeps (t.arbDecide i heads).2 := by
  unfold State.arbDecide
  extract_lets _ _ s'
  have hs' : s.Keeps s' := h.setArbX
  split
  · exact hs'.arbStat.pair
  · extract_lets _ _ s1 s2
    have hs1 : s.Keeps s1 := hs'.setArbX
    have hs2 : s.Keeps s2 := by
      dsimp only [s2]
      split
      · exact hs1
      · exact (hs1.ctlPut.ite hs1).ctlPut.arbEvent
    exact hs2.arbStat.pair

theorem arbUnlock (h : s.Keeps t) {i : Nat} : s.Keeps (t.arbUnlock i) := by
  unfold State.arbUnlock
  extract_lets
  split
  · exact h
  · exact h.setArbX.arbStat

theorem arbAgentReset (h : s.Keeps t) {agent : Nat} : s.Keeps (t.arbAgentReset agent) :=
  h.foldl fun h => h.arbUnlock

theorem arbLinkReset (h : s.Keeps t) {p : Nat} : s.Keeps (t.arbLinkReset p) :=
  h.foldl fun h => h.arbUnlock

theorem arbInputReset (h : s.Keeps t) {i input : Nat} : s.Keeps (t.arbInputReset i input) :=
  h.setArbX.arbStat

theorem arbCoreReset (h : s.Keeps t) {c : Nat} : s.Keeps (t.arbCoreReset c) := by
  unfold State.arbCoreReset
  exact (h.arbAgentReset.foldl fun h => h.arbInputReset).arbInputReset

theorem execLocklong (h : s.Keeps t) {i : Nat} : s.KeepsOut (execLocklong i t) := by
  unfold Machine.execLocklong
  extract_lets
  split
  · exact h
  · exact .ite h h.setArbX.ctlPut.arbEvent

/-! ### Machine/Vector -/

theorem vBits (h : s.Keeps t) {x : Issue} {d a b : Reg} {f : Word → Word → Word} : s.Keeps (t.vBits x d a b f) :=
  h.issueCore

theorem vShift (h : s.Keeps t) {x : Issue} {fws : List Nat} {d a : Reg} {n : Byte} {f : NumFmt → Nat → Int} :
    s.Keeps (t.vShift x fws d a n f) :=
  h.issueCore

/-! ### Machine/Plates -/

theorem plateOp (h : s.Keeps t) {x : Issue} {sh : Shape} {f : Core → Except PlErr Core} : s.Keeps (t.plateOp x sh f) := by
  unfold State.plateOp
  refine h.issue fun h => ?_
  split
  · exact h.setCore
  · exact trivial

/-! ### Machine/Array -/

theorem arrayOp (h : s.Keeps t) {x : Issue} {sh : Shape} {check : Core → Option PlErr} {go : Core → Core} :
    s.Keeps (t.arrayOp x sh check go) := by
  unfold State.arrayOp
  refine h.issue fun h => ?_
  extract_lets
  split
  · exact trivial
  · exact h.setCore

theorem arrLoad (h : s.Keeps t) {x : Issue} {sh : Shape} {kind : ArrKind} {w e : Nat} {c : Byte} :
    s.Keeps (t.arrLoad x sh kind w e c) :=
  h.arrayOp

theorem arrPass (h : s.Keeps t) {x : Issue} {sh : Shape} {kind : ArrKind} {c a e : Nat} {ws wg wk : Reg} :
    s.Keeps (t.arrPass x sh kind c a e ws wg wk) :=
  h.arrayOp

/-! ### Machine/Branch -/

theorem branch (h : s.Keeps t) {x : Issue} {sh : Shape} {taken : Core → Bool} {target : Core → Pair} :
    s.Keeps (t.branch x sh taken target) := by
  unfold State.branch
  exact h.issue fun h => h.jump.ite h.next

/-! ### Machine/MemSys -/

theorem tryAdmit (h : s.Keeps t) {q : MemReq} : s.Keeps (t.tryAdmit q) := by
  unfold State.tryAdmit
  extract_lets t'
  have ht' : s.Keeps t' := h.update
  exact (ht'.arbDecide.ite ht').ite h

theorem requestAdmit (h : s.Keeps t) {agent pa : Nat} {write : Bool} {bank : Nat} {acc : MemAcc} :
    s.Keeps (t.requestAdmit agent pa write bank acc) := by
  unfold State.requestAdmit
  extract_lets _ _ _ s1
  have hs1 : s.Keeps s1 := h.update
  exact h.ite (h.tryAdmit.ite (h.ite (hs1.ctlCount.ite hs1).tryAdmit))

theorem admitChan (h : s.Keeps t) {arb : Nat} {hs : List (ArbReq × MemReq)} : s.Keeps (t.admitChan arb hs) := by
  unfold State.admitChan
  split
  rename_i he
  have hw := h.arbDecide.snd he
  split
  · exact hw.update
  · exact hw

theorem admitGddr (h : s.Keeps t) {g chan : Nat} {freedBank : Option Nat} {n : Nat} :
    s.Keeps (t.admitGddr g chan freedBank n) := by
  induction n generalizing t with
  | zero => exact h
  | succ n ih =>
    unfold State.admitGddr
    extract_lets
    split
    · exact h
    · exact ih h.admitChan

theorem admitCxl (h : s.Keeps t) {n : Nat} : s.Keeps (t.admitCxl n) := by
  induction n generalizing t with
  | zero => exact h
  | succ n ih =>
    unfold State.admitCxl
    split
    · exact (ih h.tryAdmit).ite h
    · exact h

theorem admitNext (h : s.Keeps t) {pa : Nat} : s.Keeps (t.admitNext pa) := by
  unfold State.admitNext
  split
  · exact h.admitGddr
  · exact h.admitCxl
  · exact h

theorem poisonLine (h : s.Keeps t) {pa : Nat} : s.Keeps (t.poisonLine pa) := by
  unfold State.poisonLine
  extract_lets
  split
  · exact h.tcLeaveAll.update
  · exact h

theorem tcLost (h : s.Keeps t) {die pa : Nat} : s.Keeps (t.tcLost die pa) :=
  h.poisonLine.memErrLog.logAdd.ephFault

theorem detect (h : s.Keeps t) {die pa : Nat} {d : Detect} : s.Keeps (t.detect die pa d).2 := by
  unfold State.detect
  extract_lets known
  have hknown : ∀ {u}, s.Keeps u → s.Keeps (known u).2 := by
    intros _ h
    dsimp only [known]
    split
    · exact h.memFail.pair
    · exact h.pair
  split
  · exact h.update.pair
  · exact h.memErrLog.pair.iteSnd (hknown h)
  · exact hknown h.tcLeave.memErrLog
  · exact hknown h.tcLeave.memErrLog
  · exact h.tcLost.pair
  · exact h.tcLost.pair
  · exact h.tcLost.pair
  · exact h.tcLost.pair
  · split
    · exact hknown h
    · exact h.memErrLog.pair
  · exact h.poisonLine.memFail.pair
  · exact h.poisonLine.memFail.pair
  · exact hknown h

theorem fillLine (h : s.Keeps t) {die pa : Nat} {desc : Option Nat} {page : Option PageAttr} {write : Bool} :
    s.Keeps (t.fillLine die pa desc page write) :=
  h.ite h.agentTouch

theorem tcOpWrite (h : s.Keeps t) {die : Nat} {v : Word} : s.Keeps (t.tcOpWrite die v) :=
  h.ite h.ctlSet

theorem cmbxPost (h : s.Keeps t) {n k : Nat} {v : Word} : s.Keeps (t.cmbxPost n k v) := by
  unfold State.cmbxPost
  extract_lets _ s1
  have hs1 : s.Keeps s1 := h.ctlSet.ctlSet
  exact h.ite (h.logAdd.ite (h.ctlSet.ite (hs1.signal.ite hs1)))

/-! ### Machine/Link -/

theorem modPortX (h : s.Keeps t) {p : Nat} {f : FabPortX → FabPortX} : s.Keeps (t.modPortX p f) :=
  h.update

theorem modFlowX (h : s.Keeps t) {f : Nat} {g : FlowX → FlowX} : s.Keeps (t.modFlowX f g) :=
  h.update

theorem freeBuffers (h : s.Keeps t) {e : OutPkt} : s.Keeps (t.freeBuffers e) := by
  unfold State.freeBuffers
  split
  · exact h.modPortX
  · exact h

theorem routerPick (h : s.Keeps t) {p : Nat} {l : List OutPkt} : s.Keeps (t.routerPick p l).2 :=
  h.arbDecide

theorem pickOut (h : s.Keeps t) {p : Nat} : s.Keeps (t.pickOut p).2 := by
  unfold State.pickOut
  extract_lets
  split
  · exact h.routerPick
  · exact h.routerPick.iteSnd (h.pair.iteSnd h.pair)

theorem sendFlits (h : s.Keeps t) {p : Nat} {e : OutPkt} {paid : Bool} : s.Keeps (t.sendFlits p e paid) :=
  h.modPortX.foldl fun h => h.emit

theorem sendOut (h : s.Keeps t) {p : Nat} {e : OutPkt} : s.Keeps (t.sendOut p e) :=
  h.modPortX.sendFlits.freeBuffers

theorem pumpPort (h : s.Keeps t) {p n : Nat} : s.Keeps (t.pumpPort p n) := by
  induction n generalizing t with
  | zero => exact h
  | succ n ih =>
    unfold State.pumpPort
    split
    · exact h
    · next he => exact ih (h.pickOut.snd he).sendOut

theorem creditOut (h : s.Keeps t) {p : Nat} : s.Keeps (t.creditOut p) :=
  h.ite h.modPortX.emit.sendFlits

theorem linksGo (h : s.Keeps t) : s.Keeps t.linksGo :=
  (h.foldl fun h => h.ite h.pumpPort).foldl fun h => h.ite h.creditOut

theorem enqueue (h : s.Keeps t) {p : Nat} {e : OutPkt} : s.Keeps (t.enqueue p e) :=
  h.modPortX.linksGo

theorem controlOut (h : s.Keeps t) {p typ : Nat} {fields : List Nat} : s.Keeps (t.controlOut p typ fields) :=
  h.ite h.emit.enqueue

theorem tryRoute (h : s.Keeps t) {e : OutPkt} : s.Keeps (t.tryRoute e).2 := by
  unfold State.tryRoute
  split
  · exact h.enqueue.pair
  · exact h.pair

theorem launch (h : s.Keeps t) {e : OutPkt} : s.Keeps (t.launch e).2 := by
  unfold State.launch
  extract_lets _ s1
  have hs1 : s.Keeps s1 := h.emit
  split
  · exact hs1.pair
  · split
    · exact hs1.enqueue.pair
    · exact hs1.tryRoute

theorem controlTo (h : s.Keeps t) {typ dest dflow sflow pseq : Nat} {body : List Byte} :
    s.Keeps (t.controlTo typ dest dflow sflow pseq body) :=
  h.launch

theorem routeOn (h : s.Keeps t) {e : OutPkt} : s.Keeps (t.routeOn e).2 := by
  unfold State.routeOn
  extract_lets
  split
  · next he => exact (h.tryRoute.snd he).pair
  · rename_i he
    have h2 := h.tryRoute.snd he
    extract_lets t1
    have ht1 : s.Keeps t1 := h2.freeBuffers
    exact ht1.pair.iteSnd (ht1.pair.iteSnd ht1.controlTo.linksGo.pair)

theorem dropQueued (h : s.Keeps t) {f : Nat} : s.Keeps (t.dropQueued f) :=
  h.update

theorem execArbitrationDecision (h : s.Keeps t) {i : Nat} {heads : List ArbReq} :
    s.KeepsOut (execArbitrationDecision i heads t) := by
  unfold Machine.execArbitrationDecision
  refine .ite h ?_
  split
  rename_i he
  have hw := h.arbDecide.snd he
  split
  · exact hw.update
  · exact hw

/-! ### Machine/Flow -/

theorem flowEvent (h : s.Keeps t) {f : Nat} : s.Keeps (t.flowEvent f) :=
  h.event.ite h

theorem flowEnter (h : s.Keeps t) {f st reason : Nat} : s.Keeps (t.flowEnter f st reason) := by
  unfold State.flowEnter
  extract_lets _ s1
  have hs1 : s.Keeps s1 := h.ctlPut.ctlPut
  exact hs1.flowEvent.ite hs1

theorem flowControl (h : s.Keeps t) {f typ : Nat} {fields : List Nat} : s.Keeps (t.flowControl f typ fields) :=
  h.controlTo

theorem bindFill (h : s.Keeps t) {dev : Nat} : s.Keeps (t.bindFill dev) := by
  unfold State.bindFill
  extract_lets
  refine .ite h ?_
  split
  · exact h
  · exact h.update

theorem remoteFailAt (h : s.Keeps t) {r : RemReq} {e : XErr} {fa : Pair} : s.Keeps (t.remoteFailAt r e fa) := by
  unfold State.remoteFailAt
  extract_lets s1 _ _ _ s2
  have hs1 : s.Keeps s1 := h.update
  have hs2 : s.Keeps s2 := hs1.setCore
  split
  · exact hs1.enter
  · exact hs1.enter.ite (hs2.ite hs2.retire)

theorem remoteFail (h : s.Keeps t) {r : RemReq} {e : XErr} : s.Keeps (t.remoteFail r e) :=
  h.remoteFailAt

theorem flowFailAll (h : s.Keeps t) {f : Nat} : s.Keeps (t.flowFailAll f) :=
  (h.foldl fun h => h.remoteFail).ctlPut

theorem flowFail (h : s.Keeps t) {f reason : Nat} {tell : Bool} : s.Keeps (t.flowFail f reason tell) := by
  unfold State.flowFail
  extract_lets _ s1
  have hs1 : s.Keeps s1 := h.dropQueued.flowEnter
  exact (hs1.flowControl.ite hs1).modFlowX.ctlPut.flowFailAll.ite h

theorem flowSend (h : s.Keeps t) {f typ : Nat} {body : List Byte} {input : Nat} {agent kind : Option Nat} :
    s.Keeps (t.flowSend f typ body input agent kind).2 := by
  unfold State.flowSend
  extract_lets _ s1
  have hs1 : s.Keeps s1 := h.ctlPut.ctlCount
  split
  · next he => exact (hs1.launch.snd he).pair
  · next he => exact (hs1.launch.snd he).flowFail.pair

theorem flowPump (h : s.Keeps t) {f n : Nat} : s.Keeps (t.flowPump f n) := by
  induction n generalizing t with
  | zero => exact h
  | succ n ih =>
    unfold State.flowPump
    split
    · exact h
    · exact h.ite (ih h.update.ctlPut.flowSend)

theorem pump (h : s.Keeps t) {f : Nat} : s.Keeps (t.pump f) :=
  h.flowPump

theorem pumpAll (h : s.Keeps t) : s.Keeps t.pumpAll :=
  h.foldl fun h => h.pump

theorem flowBreak (h : s.Keeps t) {f reason : Nat} {tell : Bool} : s.Keeps (t.flowBreak f reason tell) :=
  h.flowFail.pumpAll

theorem reroute (h : s.Keeps t) {e : OutPkt} : s.Keeps (t.reroute e) := by
  unfold State.reroute
  split
  · next he => exact h.routeOn.snd he
  · next he => exact (h.routeOn.snd he).flowBreak

theorem flowAnswered (h : s.Keeps t) {f : Nat} : s.Keeps (t.flowAnswered f) :=
  h.ctlPut.pumpAll

theorem remoteStart (h : s.Keeps t) {r : RemReq} : s.Keeps (t.remoteStart r) := by
  unfold State.remoteStart
  extract_lets t' fail
  have ht' : s.Keeps t' := h.bindFill
  have hfail : ∀ {r}, s.Keeps (fail r) := by
    intros
    dsimp only [fail]
    exact ht'.update.remoteFail
  split
  · exact hfail
  · exact hfail.ite ht'.update.pump

theorem execRemoteTimeoutExpiry (h : s.Keeps t) {c : Nat} : s.KeepsOut (execRemoteTimeoutExpiry c t) := by
  unfold Machine.execRemoteTimeoutExpiry
  split
  · exact h
  · extract_lets s1
    have hs1 : s.Keeps s1 := h.remoteFail
    exact hs1.flowAnswered.ite hs1

/-! ### Machine/Dma -/

theorem setDmaX (h : s.Keeps t) {q : Nat} {x : DmaX} : s.Keeps (t.setDmaX q x) :=
  h.update

theorem modDmaX (h : s.Keeps t) {q : Nat} {f : DmaX → DmaX} : s.Keeps (t.modDmaX q f) :=
  h.setDmaX

theorem setDmaState (h : s.Keeps t) {q v : Nat} : s.Keeps (t.setDmaState q v) :=
  h.ctlPut

theorem dmaAdvance (h : s.Keeps t) {q : Nat} : s.Keeps (t.dmaAdvance q) :=
  h.ctlPut

theorem ctlPlain (h : s.Keeps t) {o : Nat} {v : Word} : s.Keeps (t.ctlPlain o v) :=
  h.ctlSet

theorem dmaSend (h : s.Keeps t) {q f typ : Nat} {l : List (Pair × Nat)} {b : List Byte} : s.Keeps (t.dmaSend q f typ l b) := by
  unfold State.dmaSend
  exact foldlOn Prod.fst (fun h => h.flowSend) (h.bindFill.ite h)

theorem dmaPutWord (h : s.Keeps t) {q : Nat} {a : Pair} {w : Word} {res : RemRes} : s.Keeps (t.dmaPutWord q a w res).2 := by
  unfold State.dmaPutWord
  split
  · exact h.pair
  · split
    · split
      · exact h.pair
      · exact h.dmaSend.pair
    · split
      · exact h.pair
      · split
        · exact h.ctlPlain.pair
        · exact h.agentTouch.memPut.pair

theorem dmaPutWords (h : s.Keeps t) {q : Nat} {a : Pair} {ws : List Word} {res : RemRes} :
    s.Keeps (t.dmaPutWords q a ws res).2 := by
  induction ws generalizing t a with
  | nil => exact h
  | cons w r ih =>
    unfold State.dmaPutWords
    split
    · next he => exact (h.dmaPutWord.snd he).pair
    · next he => exact ih (h.dmaPutWord.snd he)

theorem dmaFault (h : s.Keeps t) {q : Nat} {e : XErr} {write : Bool} {a : Pair} {remote : Bool} :
    s.Keeps (t.dmaFault q e write a remote) :=
  (h.ite h.noteErr).ctlSet.ctlSet.ctlSet

theorem dmaUndefined (h : s.Keeps t) {q : Nat} {l : List (Pair × Nat)} : s.Keeps (t.dmaUndefined q l) := by
  unfold State.dmaUndefined
  refine h.foldl fun h => h.foldl fun h => ?_
  split
  · exact h.fresh.memPut
  · exact h

theorem dmaTail (h : s.Keeps t) {q : Nat} : s.Keeps (t.dmaTail q) :=
  h.ctlSet.ctlCount

theorem dmaPutRecord (h : s.Keeps t) {q : Nat} {r : DmaRec} {res : RemRes} : s.Keeps (t.dmaPutRecord q r res).2 := by
  unfold State.dmaPutRecord
  extract_lets
  split
  · next he => exact (h.dmaPutWords.snd he).pair
  · rename_i he
    have h2 := h.dmaPutWords.snd he
    split
    · next he => exact (h2.dmaPutWord.snd he).pair
    · next he => exact (h2.dmaPutWord.snd he).dmaTail.pair

theorem dmaRelease (h : s.Keeps t) {q : Nat} {ctrl : Word} {res : RemRes} : s.Keeps (t.dmaRelease q ctrl res).2 := by
  unfold State.dmaRelease
  split
  · next he => exact (h.dmaPutWord.snd he).pair
  · next he => exact (h.dmaPutWord.snd he).dmaAdvance.pair

theorem dmaHalt (h : s.Keeps t) {q : Nat} {e : Pair × XErr} : s.Keeps (t.dmaHalt q e) :=
  h.dmaFault.setDmaState.ctlPut.modDmaX

theorem dmaRecord (h : s.Keeps t) {q : Nat} {res : RemRes} : s.Keeps (t.dmaRecord q res) := by
  unfold State.dmaRecord
  extract_lets
  split
  · exact h
  · refine .ite h.ctlPut.setDmaState (.ite h ?_)
    split
    · next he => exact (h.dmaPutRecord.snd he).ctlPut.modDmaX.dmaHalt
    · rename_i r _ _ s1 he
      have hp := h.dmaPutRecord.snd he
      split
      · exact hp.ctlPut.ctlPut.setDmaState.modDmaX
      · extract_lets s2
        have hs2 : s.Keeps s2 := hp.ctlPut.ctlPut
        split
        · next he => exact (hs2.dmaRelease.snd he).modDmaX.dmaHalt
        · rename_i he
          have hr := hs2.dmaRelease.snd he
          exact (hr.semAdd.ite hr).setDmaState.modDmaX

theorem dmaDoorbell (h : s.Keeps t) {q : Nat} : s.Keeps (t.dmaDoorbell q) :=
  h.ctlPut

theorem dmaUnlock (h : s.Keeps t) {q : Nat} : s.Keeps (t.dmaUnlock q) :=
  h.arbAgentReset

theorem dmaQuiet (h : s.Keeps t) {q : Nat} : s.Keeps (t.dmaQuiet q) :=
  h.ctlPut

theorem dmaAborted (h : s.Keeps t) {q : Nat} {w1 : Word} : s.Keeps (t.dmaAborted q w1) := by
  unfold State.dmaAborted
  split
  rename_i he
  have hn := h.fresh.snd he
  refine .ctlPut (.ite hn ?_)
  split
  · next he => exact hn.dmaPutRecord.snd he
  · next he => exact (hn.dmaPutRecord.snd he).dmaFault

theorem dmaPass (h : s.Keeps t) {q : Nat} {ctrl : Except XErr Word} : s.Keeps (t.dmaPass q ctrl) := by
  unfold State.dmaPass
  split
  · exact h.dmaFault.dmaAdvance
  · split
    · next he => exact h.dmaRelease.snd he
    · next he => exact (h.dmaRelease.snd he).dmaFault.dmaAdvance

theorem dmaAbort (h : s.Keeps t) {q : Nat} : s.Keeps (t.dmaAbort q) := by
  unfold State.dmaAbort
  extract_lets _ s0 s1
  have hs0 : s.Keeps s0 := h.dmaUnlock
  have hs1 : s.Keeps s1 := by
    dsimp only [s1]
    split
    · exact hs0
    · exact hs0.dmaAborted.dmaPass
    · exact hs0.dmaUndefined.dmaAborted.dmaPass.semAdd.ite hs0.dmaUndefined.dmaAborted.dmaPass
  exact hs1.dmaQuiet.setDmaState.modDmaX

theorem dmaStop (h : s.Keeps t) {q : Nat} : s.Keeps (t.dmaStop q) :=
  h.setDmaX.ite h.dmaQuiet.setDmaState.setDmaX

theorem dmaReset (h : s.Keeps t) {q : Nat} : s.Keeps (t.dmaReset q) :=
  (h.dmaUnlock.foldl fun h => h.ctlSet).dmaQuiet.setDmaState.setDmaX

theorem dmaSkip (h : s.Keeps t) {q : Nat} : s.Keeps (t.dmaSkip q) := by
  unfold State.dmaSkip
  exact h.dmaPass.setDmaState.modDmaX

theorem dmaResume (h : s.Keeps t) {q : Nat} : s.Keeps (t.dmaResume q) := by
  unfold State.dmaResume
  extract_lets
  split
  · exact h.setDmaState.setDmaX
  · exact h.setDmaState.setDmaX

theorem dmaStart (h : s.Keeps t) {q : Nat} : s.Keeps (t.dmaStart q) :=
  h.setDmaState.modDmaX

theorem dmaCtrl (h : s.Keeps t) {q : Nat} {v : Word} : s.Keeps (t.dmaCtrl q v) :=
  (h.dmaAbort.ite h).ite ((h.dmaReset.ite h).ite ((h.ite h.dmaStop).ite ((h.dmaSkip.ite h).ite ((h.dmaResume.ite h).ite
    ((h.dmaStart.ite h).ite h)))))

theorem dmaWrite (h : s.Keeps t) {q r : Nat} {v : Word} : s.Keeps (t.dmaWrite q r v) := by
  unfold State.dmaWrite
  extract_lets _ put
  have hput : s.Keeps put := h.ctlSet
  exact h.dmaCtrl.ite (h.dmaDoorbell.ite (hput.ite ((hput.ctlSet.ite (hput.modDmaX.ite (hput.ite h))).ite h)))

theorem dmaOverrun (h : s.Keeps t) {q : Nat} : s.Keeps (t.dmaOverrun q) := by
  unfold State.dmaOverrun
  extract_lets
  split
  · exact h
  · exact h.setDmaX.ctlCount.ite h

/-! ### Machine/FabPort -/

theorem portEnter (h : s.Keeps t) {p st reason : Nat} : s.Keeps (t.portEnter p st reason) := by
  unfold State.portEnter
  extract_lets _ _ s2 _ _ s3 s4
  have hs2 : s.Keeps s2 := h.ctlPut.ctlPut.ctlPut.logAdd
  have hs3 : s.Keeps s3 := hs2.fabEvent.ephFault.modPortX.ite hs2
  have hs4 : s.Keeps s4 := hs3.fabEvent.ite hs3
  exact h.ite (hs4.fabEvent.ite hs4)

theorem portFail (h : s.Keeps t) {p reason : Nat} : s.Keeps (t.portFail p reason) :=
  h.portEnter.arbLinkReset.modPortX.foldl fun h => h.flowBreak

theorem portStart (h : s.Keeps t) {p : Nat} : s.Keeps (t.portStart p) :=
  h.portEnter.modPortX.ite h

theorem portReady (h : s.Keeps t) {p : Nat} : s.Keeps (t.portReady p) :=
  h.portEnter.modPortX

theorem grantData (h : s.Keeps t) {p : Nat} : s.Keeps (t.grantData p) :=
  h.creditOut.ite h.modPortX.creditOut

theorem portRetrain (h : s.Keeps t) {p : Nat} : s.Keeps (t.portRetrain p) :=
  h.portEnter.modPortX.ctlCount.ite h

theorem portHold (h : s.Keeps t) {p reason : Nat} : s.Keeps (t.portHold p reason) :=
  h.portEnter.modPortX.arbLinkReset

theorem linkSay (h : s.Keeps t) {p typ : Nat} {fields : List Nat} : s.Keeps (t.linkSay p typ fields) :=
  h.controlOut.ite h.emit

theorem hello (h : s.Keeps t) {p : Nat} : s.Keeps (t.hello p) :=
  h.linkSay

theorem probe (h : s.Keeps t) {p : Nat} : s.Keeps (t.probe p) :=
  h.fresh.linkSay

theorem execLinkHello (h : s.Keeps t) {p port coord shape id : Nat} : s.KeepsOut (execLinkHello p port coord shape id t) := by
  unfold Machine.execLinkHello
  extract_lets _ _ s0
  have hs0 : s.Keeps s0 := h.hello
  exact .ite h (.ite hs0.modPortX hs0.modPortX.ctlSet.probe)

theorem delayDone (h : s.Keeps t) {p : Nat} {l : List Nat} : s.Keeps (t.delayDone p l) := by
  unfold State.delayDone
  extract_lets _ s1
  have hs1 : s.Keeps s1 := h.ctlPut.modPortX
  exact (hs1.portFail.ite hs1.portReady.creditOut).ite ((hs1.portFail.ite hs1.modPortX).ite hs1)

theorem execDelayProbe (h : s.Keeps t) {p : Nat} {v : Probe} : s.KeepsOut (execDelayProbe p v t) := by
  unfold Machine.execDelayProbe
  extract_lets
  refine .ite h ?_
  split
  · exact h.linkSay
  · exact h.ite (h.modPortX.probe.ite h.delayDone)

theorem acked (h : s.Keeps t) {p : Nat} {x : Option Nat} : s.Keeps (t.acked p x) := by
  unfold State.acked
  split
  · exact h
  · exact h.modPortX

theorem resend (h : s.Keeps t) {p seq : Nat} : s.Keeps (t.resend p seq) :=
  (h.foldl fun h => h.emit).modPortX

theorem ackOut (h : s.Keeps t) {p : Nat} : s.Keeps (t.ackOut p) :=
  h.emit.modPortX.ite h

theorem nakOut (h : s.Keeps t) {p : Nat} : s.Keeps (t.nakOut p) :=
  h.ite h.controlOut.modPortX

theorem freed (h : s.Keeps t) {p v n : Nat} {credit : Bool} : s.Keeps (t.freed p v n credit) :=
  h.modPortX

theorem packetIn (h : s.Keeps t) {p v : Nat} {l : List Byte} {detour : Option Nat} : s.Keeps (t.packetIn p v l detour) :=
  h.ctlCount.freed.ite (h.freed.ite (h.freed.ite h.reroute))

theorem flitIn (h : s.Keeps t) {p : Nat} {f : Flit} {detour : Option Nat} : s.Keeps (t.flitIn p f detour) := by
  unfold State.flitIn
  extract_lets _ _ keep s1
  have hkeep : ∀ {u b}, s.Keeps u → s.Keeps (keep u b) := by
    intros _ _ h
    dsimp only [keep]
    exact h.modPortX
  have hs1 : s.Keeps s1 := h.freed.ite h
  exact h.freed.ite ((hkeep hs1).packetIn.ite (hkeep hs1))

theorem execFlitReceive (h : s.Keeps t) {p : Nat} {b : List Byte × Option Nat} : s.KeepsOut (execFlitReceive p b t) := by
  unfold Machine.execFlitReceive
  refine .ite h ?_
  split
  · exact h.ctlCount.nakOut
  · exact .ite h.acked.linksGo (.ite h.nakOut h.acked.modPortX.flitIn.linksGo.ackOut)

theorem execNak (h : s.Keeps t) {p seq : Nat} : s.KeepsOut (execNak p seq t) := by
  unfold Machine.execNak
  extract_lets _ _ s1
  have hs1 : s.Keeps s1 := h.modPortX.ctlCount
  exact .ite h (.ite hs1.portRetrain hs1.resend)

theorem execRetrainDone (h : s.Keeps t) {p : Nat} {ok : Bool} : s.KeepsOut (execRetrainDone p ok t) := by
  unfold Machine.execRetrainDone
  extract_lets s1 s2
  have hs1 : s.Keeps s1 := h.portReady
  have hs2 : s.Keeps s2 := by
    dsimp only [s2]
    refine .creditOut ?_
    split
    · exact hs1
    · exact hs1.resend
  exact .ite h (.ite h.portFail (.ite h (.ite hs2 (.ite hs2.controlOut.modPortX hs2.modPortX))))

theorem linkReset (h : s.Keeps t) {p : Nat} : s.Keeps (t.linkReset p) :=
  h.ite h.portHold

/-! ### Machine/Fabric -/

theorem floodPump (h : s.Keeps t) {p n : Nat} : s.Keeps (t.floodPump p n) := by
  induction n generalizing t with
  | zero => exact h
  | succ n ih => exact h.ite (ih h.controlOut.modPortX)

theorem floodSend (h : s.Keeps t) {p : Nat} {ns : List (BitVec 64)} : s.Keeps (t.floodSend p ns) := by
  unfold State.floodSend
  extract_lets _ s2
  have hs2 : s.Keeps s2 := h.modPortX.floodPump
  exact hs2.ite hs2.fabEvent

theorem flood (h : s.Keeps t) {n : BitVec 64} {src : Option Nat} : s.Keeps (t.flood n src) := by
  unfold State.flood
  extract_lets _ _ s1
  have hs1 : s.Keeps s1 := h.update
  exact h.ite ((hs1.fabEvent.ite hs1).foldl fun h => h.floodSend)

theorem floodOwn (h : s.Keeps t) {kind port tick : Nat} : s.Keeps (t.floodOwn kind port tick) :=
  h.flood

theorem setMember (h : s.Keeps t) {id : Nat} {b : Bool} : s.Keeps (t.setMember id b) :=
  h.ite h.update.hostEvent

theorem noticeEffect (h : s.Keeps t) {n : BitVec 64} : s.Keeps (t.noticeEffect n) := by
  unfold State.noticeEffect
  extract_lets _ _ _ _ _ _ s12
  have hs12 : s.Keeps s12 := h.update
  split
  · exact h.update.setMember.foldl fun h => h.modPortX
  · exact (h.setMember.foldl fun h => h.modPortX).foldl fun h => h.flowBreak
  · exact h.update
  · exact hs12.setMember.ite hs12

theorem beacon (h : s.Keeps t) {p : Nat} : s.Keeps (t.beacon p) :=
  h.controlOut

theorem beaconChange (h : s.Keeps t) : s.Keeps t.beaconChange :=
  (h.foldl fun h => h.beacon.modPortX.ite h).ite h

theorem takeMaster (h : s.Keeps t) : s.Keeps t.takeMaster :=
  h.ctlSet.update

theorem electCore (h : s.Keeps t) : s.Keeps t.electCore := by
  unfold State.electCore
  extract_lets _ s1 _ _ s2
  have hs1 : s.Keeps s1 := h.ctlSet
  have hs2 : s.Keeps s2 := hs1.update.ite hs1
  exact (hs2.ctlPut.ite (hs2.ite hs2.takeMaster)).ite hs2

theorem elect (h : s.Keeps t) : s.Keeps t.elect := by
  unfold State.elect
  extract_lets t'
  have ht' : s.Keeps t' := h.electCore
  exact ht'.ite ht'.beaconChange

theorem fabEnter (h : s.Keeps t) {st : Nat} : s.Keeps (t.fabEnter st) :=
  h.ctlPut.electCore.beaconChange

theorem execBeacon (h : s.Keeps t) {p st : Nat} {b : Option (Nat × Nat) × Bool} : s.KeepsOut (execBeacon p st b t) := by
  unfold Machine.execBeacon
  extract_lets s1
  have hs1 : s.Keeps s1 := h.ctlPut.modPortX
  exact .ite h (hs1.update.ite hs1).elect

theorem setPeriod (h : s.Keeps t) {p : Nat} : s.Keeps (t.setPeriod p) :=
  h.ite h.ctlPut.tickEvent

theorem fabLeft (h : s.Keeps t) : s.Keeps t.fabLeft :=
  h.fabEvent.ephFault.update.ite h

theorem loseLock (h : s.Keeps t) : s.Keeps t.loseLock := by
  unfold State.loseLock
  extract_lets _ _ _ s3
  have hs3 : s.Keeps s3 := h.ctlSet.tickEvent.update.ctlPut
  exact hs3.floodOwn.ite hs3

theorem lockGone (h : s.Keeps t) : s.Keeps t.lockGone := by
  unfold State.lockGone
  extract_lets _ s1
  have hs1 : s.Keeps s1 := h.ctlPut.setPeriod.ite h
  exact h.ite (hs1.fabLeft.ctlPut.fabEnter.ite hs1)

theorem fabOff (h : s.Keeps t) : s.Keeps t.fabOff := by
  unfold State.fabOff
  extract_lets _ s1
  have hs1 : s.Keeps s1 := h.fabLeft.foldl fun h => h.dropQueued.flowEnter.modFlowX.flowFailAll
  exact (hs1.foldl fun h => h.portHold.ite h).update.ctlPut.ctlPut.ctlSet.ctlSet

theorem bringUpPorts (h : s.Keeps t) : s.Keeps t.bringUpPorts :=
  h.foldl fun h => h.ite h.portStart

theorem fabDrain (h : s.Keeps t) : s.Keeps t.fabDrain :=
  (h.update.fabEnter.foldl fun h => h.remoteFail).ite ((h.floodOwn.ctlPut.ite h).update.ite h)

theorem fabRejoin (h : s.Keeps t) : s.Keeps t.fabRejoin :=
  h.update.fabEnter.bringUpPorts.ite h

theorem fabCtrl (h : s.Keeps t) {v : Word} : s.Keeps (t.fabCtrl v) := by
  unfold State.fabCtrl
  extract_lets _ _ s1 s2 s3
  have hs1 : s.Keeps s1 := h.ctlSet
  have hs2 : s.Keeps s2 := hs1.fabEnter.bringUpPorts.ite hs1
  have hs3 : s.Keeps s3 := hs2.fabDrain.ite hs2
  exact (hs1.ite hs1.fabOff).ite (hs3.fabRejoin.ite hs3)

theorem fabShape (h : s.Keeps t) {v : Word} : s.Keeps (t.fabShape v) :=
  h.ite h.ctlPut.ctlSet

theorem fabCoord (h : s.Keeps t) {v : Word} : s.Keeps (t.fabCoord v) :=
  h.ite h.ctlPut.ctlSet

theorem fabPortCtrl (h : s.Keeps t) {p : Nat} {v : Word} : s.Keeps (t.fabPortCtrl p v) := by
  unfold State.fabPortCtrl
  extract_lets s1
  have hs1 : s.Keeps s1 := h.ctlPut
  exact h.ite ((hs1.portHold.ite hs1).ite (hs1.portRetrain.ite hs1))

theorem flowOpenSend (h : s.Keeps t) {f : Nat} : s.Keeps (t.flowOpenSend f) :=
  h.flowEnter.ctlCount.modFlowX.flowControl

theorem admitStep (h : s.Keeps t) : s.Keeps t.admitStep :=
  h.ite (h.floodOwn.ctlPut.ite (h.ite ((h.ctlPut.setMember.fabEvent.fabEnter.foldl fun h => h.grantData).foldl fun h =>
    h.flowOpenSend)))

theorem leaveStep (h : s.Keeps t) : s.Keeps t.leaveStep := by
  unfold State.leaveStep
  extract_lets
  split
  · exact h
  · exact h.update.setMember.fabEvent.fabEnter.ite h

theorem noticesOf (h : s.Keeps t) {kind : Nat → Bool} : s.Keeps (t.noticesOf kind) :=
  h.update.foldl fun h => h.noticeEffect

theorem lostPort (h : s.Keeps t) {p : Nat} : s.Keeps (t.lostPort p) := by
  unfold State.lostPort
  extract_lets _ s1
  have hs1 : s.Keeps s1 := h.modPortX.floodOwn
  exact h.ite ((hs1.flood.ite hs1).elect)

theorem boundaryLost (h : s.Keeps t) : s.Keeps t.boundaryLost :=
  h.lockGone.foldl fun h => h.lostPort

theorem boundaryLeave (h : s.Keeps t) : s.Keeps t.boundaryLeave :=
  h.boundaryLost.noticesOf.noticesOf.leaveStep

theorem boundaryAdmit (h : s.Keeps t) : s.Keeps t.boundaryAdmit :=
  h.boundaryLeave.noticesOf.elect.admitStep

theorem routesTake (h : s.Keeps t) : s.Keeps t.routesTake := by
  unfold State.routesTake
  extract_lets _ _ _ _ _ s2 s3
  have hs2 : s.Keeps s2 := h.ctlSet.update.foldl fun h => (h.modPortX.grantData.ite h.modPortX).ite h
  have hs3 : s.Keeps s3 := hs2.foldl fun h => (h.modPortX.foldl fun h => h.reroute).ite h
  exact hs3.linksGo

theorem allFailed (h : s.Keeps t) : s.Keeps t.allFailed :=
  (h.foldl fun h => h.flowBreak).fabLeft.fabEnter.ite h

theorem refuse (h : s.Keeps t) {src sflow dflow : Nat} : s.Keeps (t.refuse src sflow dflow) :=
  h.update.controlTo.ite h.fabEvent

theorem flowOpened (h : s.Keeps t) {f : Nat} : s.Keeps (t.flowOpened f) :=
  h.flowEnter.ctlSet.pump

theorem flowBackoff (h : s.Keeps t) {f reason after : Nat} : s.Keeps (t.flowBackoff f reason after) :=
  h.flowEnter.ctlSet

theorem execFlowOpen (h : s.Keeps t) {src sflow f : Nat} : s.KeepsOut (execFlowOpen src sflow f t) :=
  .ite h.refuse (.ite h.controlTo (.ite (h.ctlPut.ite h).controlTo.flowOpened h.controlTo))

theorem execFlowAccept (h : s.Keeps t) {src sflow f : Nat} : s.KeepsOut (execFlowAccept src sflow f t) :=
  .ite h.refuse (.ite h.flowOpened h)

theorem flowCmd (h : s.Keeps t) {f op : Nat} : s.Keeps (t.flowCmd f op) := by
  unfold State.flowCmd
  extract_lets _ s1
  have hs1 : s.Keeps s1 := h.ctlPut
  exact (h.flowEnter.ctlPut.ite h).ite ((h.ite (hs1.flowOpenSend.ite hs1.flowEnter.modFlowX)).ite
    (((h.flowControl.flowEnter.modFlowX.ite h.flowEnter).ite h).ite
    (h.dropQueued.flowEnter.modFlowX.ctlPut.flowFailAll.pumpAll.ite h)))

theorem flowCmdWrite (h : s.Keeps t) {v : Word} : s.Keeps (t.flowCmdWrite v) :=
  h.flowCmd

theorem fabTick (h : s.Keeps t) : s.Keeps t.fabTick := by
  unfold State.fabTick
  extract_lets _ _ _ s3 s4
  have hs3 : s.Keeps s3 := (h.update.foldl fun h => h.modPortX.ite h.modPortX.floodSend).electCore
  have hs4 : s.Keeps s4 := (hs3.foldl fun h => h.beacon).ite hs3
  exact (hs4.foldl fun h => h.modPortX.probe).ite hs4

theorem seedDropTick (h : s.Keeps t) : s.Keeps t.seedDropTick :=
  h.update.loseLock.ite h

theorem fabFatal (h : s.Keeps t) : s.Keeps t.fabFatal :=
  h.fabLeft.update.ctlPut

/-! ### Machine/Eph -/

theorem modEph (h : s.Keeps t) {f : EphX → EphX} : s.Keeps (t.modEph f) :=
  h.update

theorem restoreSeeds (h : s.Keeps t) {start : Nat} : s.Keeps (t.restoreSeeds start) := by
  unfold State.restoreSeeds
  split
  · exact (h.foldl fun h => h.modCore).foldl fun h => h.ctlSet.ctlSet.ctlSet
  · exact h

theorem ephOpenWrite (h : s.Keeps t) {v : Word} : s.Keeps (t.ephOpenWrite v) :=
  h.ite h.modEph

theorem ephCommitWrite (h : s.Keeps t) {v : Word} : s.Keeps (t.ephCommitWrite v) := by
  unfold State.ephCommitWrite
  split
  · exact h.ctlSet.modEph.ite h
  · exact h

theorem openRecord (h : s.Keeps t) {step : Nat} : s.Keeps (t.openRecord step) :=
  (h.restoreSeeds.ite h).ctlPut.ctlPut.ctlPut.modEph.ephAppend.modEph.ephAppend.ephAppend

theorem openReplay (h : s.Keeps t) {step : Nat} : s.Keeps (t.openReplay step) := by
  unfold State.openReplay
  exact h.restoreSeeds.ctlPut.ctlPut.ctlPut.modEph.ite h.ephEvent

theorem execRecordOpen (h : s.Keeps t) : s.KeepsOut (execRecordOpen t) := by
  unfold Machine.execRecordOpen
  extract_lets s1
  have hs1 : s.Keeps s1 := h.modEph
  split
  · exact h
  · exact .ite h (.ite hs1 (.ite hs1.openRecord (.ite hs1.openReplay hs1.ephEvent)))

theorem closeRecord (h : s.Keeps t) {status : Nat} : s.Keeps (t.closeRecord status) := by
  unfold State.closeRecord
  extract_lets _ s2
  have hs2 : s.Keeps s2 := h.ephAppend.ctlPut.modEph
  refine .ite ?_ hs2
  split
  · exact hs2.ctlPut
  · exact hs2.ctlPut

theorem execStepCommit (h : s.Keeps t) : s.KeepsOut (execStepCommit t) := by
  unfold Machine.execStepCommit
  split
  · exact h
  · exact .ite h (.ite h.modEph.ephEvent h.closeRecord)

theorem ephDigLen (h : s.Keeps t) {v : Word} : s.Keeps (t.ephDigLen v) :=
  h.ite (h.ephEvent.ite h.ctlPut.modEph)

theorem execDigestComplete (h : s.Keeps t) : s.KeepsOut (execDigestComplete t) := by
  unfold Machine.execDigestComplete
  extract_lets s1 s2
  have hs1 : s.Keeps s1 := h.ctlPut.modEph
  have hs2 : s.Keeps s2 := hs1.modEph
  split
  · exact h
  · extract_lets
    refine .ite hs1.ephEvent ?_
    split
    · exact hs1.memFail.ephEvent
    · refine .ite ?_ hs1.ephAppend
      split
      · exact hs2.ite hs2.ephEvent
      · exact hs2.ephEvent

theorem ephNote (h : s.Keeps t) {v : Word} : s.Keeps (t.ephNote v) :=
  h.ite (h.ephEvent.ite h.ephAppend)

theorem ephRecov (h : s.Keeps t) {v : Word} : s.Keeps (t.ephRecov v) := by
  unfold State.ephRecov
  extract_lets _ _ s1
  have hs1 : s.Keeps s1 := h.ctlSet
  exact hs1.ctlPut.modEph.ite hs1

theorem ephTick (h : s.Keeps t) : s.Keeps t.ephTick :=
  h.ctlCount.modEph.ite h

theorem linFind (h : s.Keeps t) {n : Nat} {v : Word} : s.Keeps (t.linFind n v) :=
  h.ctlSet.modEph

theorem linDone (h : s.Keeps t) {n : Nat} : s.Keeps (t.linDone n) :=
  h.ctlSet.modEph.ite h

/-! ### Machine/Coll -/

theorem modCe (h : s.Keeps t) {f : CeX → CeX} : s.Keeps (t.modCe f) :=
  h.update

theorem modGroup (h : s.Keeps t) {g : Nat} {f : CeGroup → CeGroup} : s.Keeps (t.modGroup g f) :=
  h.modCe

theorem cePut (h : s.Keeps t) {c : CeBucket} : s.Keeps (t.cePut c) :=
  h.modCe

theorem cgCfg (h : s.Keeps t) {g : Nat} {v : Word} : s.Keeps (t.cgCfg g v) :=
  h.ctlSet.modGroup

theorem ceEmit (h : s.Keeps t) {p : CeSend} : s.Keeps (t.ceEmit p) :=
  h.flowSend

theorem cePump (h : s.Keeps t) : s.Keeps t.cePump := by
  unfold State.cePump
  refine .modCe (foldlOn Prod.fst (fun h => ?_) h.modCe.pairFst)
  dsimp only
  refine .iteFst h.pairFst (.iteFst (.iteFst ?_ ?_) ?_)
  · exact h.ctlPut.ceEvent.pairFst
  · exact h.ceEmit.modCe.pairFst
  · exact h.ceEmit.pairFst

theorem cePush (h : s.Keeps t) {l : List CeSend} : s.Keeps (t.cePush l) :=
  h.ite h.modCe.cePump

theorem ceRoom (h : s.Keeps t) : s.Keeps t.ceRoom :=
  h.ctlPut.cePump

theorem ceDrop (h : s.Keeps t) {g b st : Nat} : s.Keeps (t.ceDrop g b st) :=
  h.modCe.ceRoom

theorem ceStore (h : s.Keeps t) {a : Pair} {l : List Byte} : s.Keeps (t.ceStore a l).1 := by
  unfold State.ceStore
  refine foldlOn (fun acc : (State × Option XErr) × List Byte => acc.1.1) (fun h => ?_) h
  split
  · exact h
  · split
    · exact h
    · exact h.agentTouch.memPut

theorem ceDst (h : s.Keeps t) {c : CeBucket} {a : Pair} {l : List Byte} : s.Keeps (t.ceDst c a l).1 := by
  unfold State.ceDst
  split
  · exact h.pairFst
  · split
    · next he => exact (h.ceStore.fst he).pairFst
    · next he => exact (h.ceStore.fst he).noteErr.pairFst

theorem gatherOwn (h : s.Keeps t) {c : CeBucket} {g : Geo} {off : Nat} {l : List Byte} : s.Keeps (t.gatherOwn c g off l) :=
  h.cePush

theorem ceConvert (h : s.Keeps t) {g : Geo} {c : CeBucket} {e : Nat × CBlock} : s.Keeps (t.ceConvert g c e).1 :=
  h.ceDst.gatherOwn.ite h.ceDst

theorem ceMoved (h : s.Keeps t) {g : Geo} {m : Moved} : s.Keeps (t.ceMoved g m) := by
  unfold State.ceMoved
  extract_lets
  refine .ite ?_ h.cePut.cePush
  split
  rename_i he
  exact ((foldlOn Prod.fst (fun h => h.ceConvert) h).fst he).cePut.cePush

/-- The comparison of a recorded digest. The reading of the ring is a variable here: no proof about it evaluates the
search of the whole ring. -/
theorem digestMatch (h : s.Keeps t) (hu : s.Keeps u) {o : Option Nat} {digest : Nat → Option (List Word)} {d : List Word} :
    s.Keeps (match o with
      | none => t
      | some o => match digest o with
        | none => t
        | some d' => if d' = d then t else u) := by
  split
  · exact h
  · split
    · exact h
    · exact h.ite hu

theorem ceCompare (h : s.Keeps t) {c : CeBucket} : s.Keeps (t.ceCompare c) := by
  unfold State.ceCompare
  exact h.ite (h.digestMatch h.ephEvent)

theorem ceStand (h : s.Keeps t) {c : CeBucket} {how : Contrib} : s.Keeps (t.ceStand c how) := by
  unfold State.ceStand
  extract_lets _ _ s'
  have hs' : s.Keeps s' := h.cePut.ceCompare
  exact h.ite (hs'.cePut.ite hs'.ceMoved)

theorem ceTakeCarry (h : s.Keeps t) {c : CeBucket} : s.Keeps (t.ceTakeCarry c).1 := by
  unfold State.ceTakeCarry
  split
  · exact h.pairFst
  · split
    · split
      · exact h.pairFst
      · exact h.modCe.pairFst
    · exact h.pairFst

theorem ceDropCarry (h : s.Keeps t) {c : CeBucket} : s.Keeps (t.ceDropCarry c).1 :=
  h.modCe.ceEvent.pairFst

theorem ceTry (h : s.Keeps t) {c : CeBucket} : s.Keeps (t.ceTry c) := by
  unfold State.ceTry
  split
  · rename_i he
    have h0 := (h.pairFst.iteFst h.ceTakeCarry).fst he
    extract_lets s'
    have hs' : s.Keeps s' := h0.cePut
    refine .ite hs' ?_
    split
    · exact hs'.ceStand.ite hs'.ceStand
    · exact hs'.ite hs'.ceStand

theorem ceLate (h : s.Keeps t) {c : CeBucket} {later : Bool} : s.Keeps (t.ceLate c later) :=
  h.modCe.ceStand.ite h.ceStand

theorem ceAsk (h : s.Keeps t) {c : CeBucket} : s.Keeps (t.ceAsk c) :=
  h.cePut.cePush

theorem ceAnswer (h : s.Keeps t) {c : CeBucket} : s.Keeps (t.ceAnswer c) := by
  unfold State.ceAnswer
  extract_lets
  split
  · exact h
  · exact h.modCe.cePush

theorem ceTake (h : s.Keeps t) {b : CeBucket} : s.Keeps (t.ceTake b) := by
  unfold State.ceTake
  extract_lets
  refine .ite h (.ite ?_ h.cePut)
  split
  · exact h.noteErr.cePut
  · exact h.cePut.ceAnswer.ceTry

theorem ceTakeLater (h : s.Keeps t) {g b st : Nat} : s.Keeps (t.ceTakeLater g b st) :=
  h.modCe

theorem ceSample (h : s.Keeps t) : s.Keeps t.ceSample := by
  unfold State.ceSample
  refine h.foldl fun h => ?_
  split
  · exact h
  · extract_lets u
    have hu : s.Keeps u := h.ceTake
    refine .ite h ?_
    split
    · exact hu
    · exact hu.cePut

theorem ceReceive (h : s.Keeps t) {c : CeBucket} {g : Geo} {src off total : Nat} {l : List Byte} :
    s.Keeps (t.ceReceive c g src off total l).1 :=
  h.ceDst.ceDst.iteFst h.ceDst.pairFst

theorem ceEpoch (h : s.Keeps t) {c : CeBucket} {g : Geo} : s.Keeps (t.ceEpoch c g) := by
  unfold State.ceEpoch
  extract_lets _ _ _ _ _ send
  have hsend : ∀ {r prev}, s.Keeps (send r prev) := by
    intro r prev
    dsimp only [send]
    split
    · exact h.noteErr.cePut
    · have ht1 {c1 c2 n l} := ((h.ceDst (c := c) (a := c1) (l := l)).cePut (c := c2)).gatherOwn (c := c2) (g := g) (off := n)
        (l := l)
      exact ht1.ctlPut.ite ht1
  exact hsend.ite (hsend.ite h.cePut.cePush)

theorem ceKick (h : s.Keeps t) {c : CeBucket} : s.Keeps (t.ceKick c) := by
  unfold State.ceKick
  extract_lets
  refine .ite h (.ite h.ceEpoch (.ite ?_ h))
  split
  · exact h.noteErr.cePut
  · refine .ite ?_ ?_
    · split
      · exact h.noteErr.cePut
      · exact h.ceDst.cePut.gatherOwn
    · split
      · exact h.noteErr.cePut
      · exact h.cePut.foldl fun h => h.ceReceive.cePut.ite h.cePush

theorem ceKickAll (h : s.Keeps t) : s.Keeps t.ceKickAll := by
  unfold State.ceKickAll
  refine .cePump (h.foldl fun h => ?_)
  split
  · exact h.ceKick
  · exact h

/-! ### Machine/CollRun -/

theorem ceEnd (h : s.Keeps t) {c : CeBucket} {status : Nat} : s.Keeps (t.ceEnd c status) :=
  h.cePut.ceDrop

theorem ceVernier (h : s.Keeps t) {c : CeBucket} : s.Keeps (t.ceVernier c) :=
  h.ceEnd.ceEvent

theorem ceEarly (h : s.Keeps t) {e : CeEarly} : s.Keeps (t.ceEarly e) :=
  h.modCe

theorem ceBlocks (h : s.Keeps t) {flow : Nat} {sh : CollHdr} {bs : List CBlock} {fail : VCheck} :
    s.Keeps (t.ceBlocks flow sh bs fail) := by
  unfold State.ceBlocks
  extract_lets
  split
  · exact h.ceEarly
  · extract_lets
    split
    · exact h
    · exact h.ite ((h.ceVernier.ite h.cePut.ceEmit).ite (h.ceVernier.ite h.ceEmit.ceMoved))

theorem ceData (h : s.Keeps t) {flow : Nat} {sh : CollHdr} {total : Nat} {l : List Byte} :
    s.Keeps (t.ceData flow sh total l) := by
  unfold State.ceData
  extract_lets
  refine .ite h.cePush ?_
  split
  · exact h.ceEarly
  · extract_lets
    refine .ite h.ceEarly (.ite h (.ite (h.ceReceive.cePut.ite h) ?_))
    split
    · exact h
    · exact h.ceDst.cePut.cePush

theorem ceMismatch (h : s.Keeps t) {flow : Nat} {sh : CollHdr} : s.Keeps (t.ceMismatch flow sh) := by
  unfold State.ceMismatch
  split
  · exact h.ceEarly
  · extract_lets
    refine .ite h ?_
    split
    · exact h
    · exact h.cePut.cePush

theorem ceLateArrivals (h : s.Keeps t) {g b st : Nat} : s.Keeps (t.ceLateArrivals g b st) :=
  h.modCe.foldl fun h => h.ceBlocks.ite (h.ceData.ite h.ceMismatch)

theorem ceAck (h : s.Keeps t) {flow : Nat} {sh : CollHdr} : s.Keeps (t.ceAck flow sh) :=
  h.modCe.ceRoom

theorem ceResend (h : s.Keeps t) {flow : Nat} {sh : CollHdr} : s.Keeps (t.ceResend flow sh) := by
  unfold State.ceResend
  split
  · exact h
  · extract_lets
    refine .ite ?_ h.modCe.ceEmit
    split
    · exact h.ceVernier
    · exact h.ceDrop.ceEvent

theorem ceAsked (h : s.Keeps t) {flow : Nat} {sh : CollHdr} : s.Keeps (t.ceAsked flow sh) := by
  unfold State.ceAsked
  extract_lets own
  clear_value own
  split
  · exact h.cePush
  · exact h.modCe

theorem ceCopy (h : s.Keeps t) {sh : CollHdr} {bs : List CBlock} : s.Keeps (t.ceCopy sh bs) := by
  unfold State.ceCopy
  split
  · exact h
  · exact h.ite (h.ceTakeCarry.ceStand.ite h.cePut)

theorem ceRx (h : s.Keeps t) {flow : Nat} {x : CollRx} : s.Keeps (t.ceRx flow x) := by
  unfold State.ceRx
  split
  · exact h.ceBlocks
  · exact h.ceData
  · exact h.ceAck
  · exact h.ceResend
  · exact h.ceAsked
  · exact h.ceCopy
  · exact h.ceMismatch

theorem ceRoll (h : s.Keeps t) {g step : Nat} : s.Keeps (t.ceRoll g step) := by
  unfold State.ceRoll
  split
  · exact h.ite (h.modGroup.ite h.modGroup)
  · exact h

theorem ceCounts (h : s.Keeps t) {q : Nat} : s.Keeps (t.ceCounts q) := by
  unfold State.ceCounts
  extract_lets _ s1
  have hs1 : s.Keeps s1 := h.ctlPut.ctlPut
  exact hs1.ite hs1.ctlPut

theorem ceOpen (h : s.Keeps t) {c : CeBucket} : s.Keeps (t.ceOpen c) := by
  unfold State.ceOpen
  refine .ite h (.ite (h.cePut.ite h.ceKick) ?_)
  split
  rename_i t1 _ he
  have h1 : s.Keeps t1 := by
    refine fst ?_ he
    split
    · exact h
    · exact h.ceTakeCarry.iteFst h.ceDropCarry
  refine .ite h1.cePut.ceStand ?_
  split
  · exact h1.cePut.ceLate
  · exact h1.cePut.ceLate
  · exact h1.cePut.ceAsk
  · exact h1.cePut

theorem ceAdopt (h : s.Keeps t) {p c : CeBucket} : s.Keeps (t.ceAdopt p c) :=
  (h.ceDropCarry.iteFst h.pairFst).cePut.modCe.ceMoved

theorem ceBegin (h : s.Keeps t) {q : Nat} {ops : Nat → Bool} : s.Keeps (t.ceBegin q ops) := by
  unfold State.ceBegin
  extract_lets _ _ _ s0 setLook list
  have hs0 : s.Keeps s0 := h.ite h.ctlPut
  have hsetLook : ∀ {u b}, s.Keeps u → s.Keeps (setLook u b) := by
    intros _ _ h
    dsimp only [setLook]
    exact h.modCe
  have hlist : ∀ {u c}, s.Keeps u → s.Keeps (list u c) := by
    intros _ _ h
    dsimp only [list]
    exact (hsetLook h.modCe).ctlPut.ceCounts
  refine .ite h ?_
  split
  · exact (hlist hs0.noteErr).ite h
  · extract_lets
    refine .ite (hsetLook hs0) (.ite h (.ite (hlist hs0) (.ite (hlist hs0) ?_)))
    split
    · exact hlist hs0.noteErr
    · extract_lets _ s1
      have hs1 : s.Keeps s1 := hs0.ceRoll
      split
      · exact hlist hs0.noteErr
      · extract_lets
        refine .ite (hlist hs0) ?_
        split
        · exact (hsetLook hs1.ceAdopt).ctlPut.ceCounts.ceLateArrivals
        · exact (hlist hs1).ceOpen.ceLateArrivals

theorem execPartTake (h : s.Keeps t) {g b st : Nat} : s.KeepsOut (execPartTake g b st t) := by
  unfold Machine.execPartTake
  extract_lets s1
  have hs1 : s.Keeps s1 := by
    dsimp only [s1]
    split
    · exact h.ceTake
    · exact h
  exact hs1.ceTakeLater.ceKickAll

theorem execBucketDeadline (h : s.Keeps t) {g b st : Nat} {segs : List Nat} {exp0 : Nat} :
    s.KeepsOut (execBucketDeadline g b st segs exp0 t) := by
  unfold Machine.execBucketDeadline
  extract_lets
  split
  · exact .ite h h.modCe.ceStand.ceLateArrivals
  · refine .ite h ?_
    split
    · rename_i he
      have h3 := (h.ceDropCarry.iteFst h.pairFst).fst he
      extract_lets s2
      have hs2 : s.Keeps s2 := h3.modGroup
      refine .ite h3.ceStand ?_
      split
      · exact hs2.ceLate
      · exact hs2.ceLate
      · exact hs2.ceAsk

theorem execBackupGraceExpiry (h : s.Keeps t) {g b st : Nat} : s.KeepsOut (execBackupGraceExpiry g b st t) := by
  unfold Machine.execBackupGraceExpiry
  split
  · exact h
  · exact .ite h.ceEvent.ceLate h

theorem execCarryComplete (h : s.Keeps t) {g b st : Nat} : s.KeepsOut (execCarryComplete g b st t) := by
  unfold Machine.execCarryComplete
  split
  · exact h
  · refine .ite h ?_
    split
    · exact h.noteErr
    · split
      · next he => exact (h.ceStore.fst he).noteErr
      · rename_i he
        have h3 := h.ceStore.fst he
        extract_lets _ t2
        have ht2 : s.Keeps t2 := h3.modCe.modGroup
        split
        · exact ht2.ceTry
        · exact ht2

theorem ceMemberLost (h : s.Keeps t) {c : CeBucket} : s.Keeps (t.ceMemberLost c) :=
  h.ite h.ceEnd.ceEvent

theorem execMemberLost (h : s.Keeps t) {g b st : Nat} : s.KeepsOut (execMemberLost g b st t) := by
  unfold Machine.execMemberLost
  split
  · exact h
  · exact h.ceMemberLost

theorem ceRecord (h : s.Keeps t) {q : Nat} {l : List Word} : s.Keeps (t.ceRecord q l) := by
  unfold State.ceRecord
  extract_lets
  split
  · exact h.noteErr
  · exact h.memPut.memPut.ctlSet

theorem ceRelease (h : s.Keeps t) {c : CeBucket} : s.Keeps (t.ceRelease c) := by
  unfold State.ceRelease
  split
  · exact h.noteErr
  · exact h.memPut

theorem ceComplete (h : s.Keeps t) {c : CeBucket} : s.Keeps (t.ceComplete c) := by
  unfold State.ceComplete
  extract_lets _ _ _ _ _ s4 _ _ s6 s7
  have hs4 : s.Keeps s4 := h.ctlPut.ceRecord.ceRelease.modGroup.modCe
  have hs6 : s.Keeps s6 := (hs4.ctlPut.ite hs4).ephAppend
  have hs7 : s.Keeps s7 := hs6.ceEvent.ite hs6
  exact (hs7.semAdd.ite hs7).ceCounts

theorem execBucketComplete (h : s.Keeps t) {g b st : Nat} : s.KeepsOut (execBucketComplete g b st t) := by
  unfold Machine.execBucketComplete
  split
  · exact h
  · exact .ite h.ctlPut h.ceComplete

theorem ceDoorbell (h : s.Keeps t) {q : Nat} : s.Keeps (t.ceDoorbell q) :=
  h.ctlPut

theorem ceCtrl (h : s.Keeps t) {q : Nat} {v : Word} : s.Keeps (t.ceCtrl q v) :=
  h.ctlPut.modCe.ite ((h.ctlSet.ctlSet.ite h).ite (h.ctlPut.modCe.ceCounts.ite h))

theorem shAdv (h : s.Keeps t) {n : Nat} {v : Word} : s.Keeps (t.shAdv n v) :=
  h.ctlPut.ceEvent.ite h.ctlSet.ctlSet.ctlSet.ctlPut

theorem ceWrite (h : s.Keeps t) {o : Nat} {v : Word} : s.Keeps (t.ceWrite o v) := by
  unfold State.ceWrite
  extract_lets put
  have hput : s.Keeps put := h.ctlSet
  refine .ite ?_ ?_
  · split
    · exact hput.ite h
    · exact h.ceCtrl
    · exact h.ceDoorbell
    · exact hput
  · refine .ite (h.ite (h.cgCfg.ite hput)) (.ite ?_ hput)
    split
    · exact h.ite hput
    · exact h.ite hput
    · exact h.shAdv
    · exact hput

theorem ceRollback (h : s.Keeps t) {step : Nat} : s.Keeps (t.ceRollback step) := by
  unfold State.ceRollback
  exact (h.foldl fun h => h.ceCtrl).modCe

end State.Keeps

theorem State.KeepsOut.kickCe {s : State} {o : Out} (h : s.KeepsOut o) : s.KeepsOut (kickCe o) := by
  unfold Machine.kickCe
  split
  · exact State.Keeps.ceKickAll h
  · exact h

namespace State.Keeps
variable {s t u : State}

/-! ### Machine/Monitor -/

theorem modMon (h : s.Keeps t) {c : Nat} {f : Monitor → Monitor} : s.Keeps (t.modMon c f) :=
  h.update

theorem dqReport (h : s.Keeps t) {c reason pa : Nat} : s.Keeps (t.dqReport c reason pa) :=
  h.ite h.modMon.logAdd

theorem dqPut (h : s.Keeps t) {c pa : Nat} {w : Word} : s.Keeps (t.dqPut c pa w) :=
  h.tcTouch.memPut

theorem dqNote (h : s.Keeps t) {reason pa : Nat} : s.Keeps (t.dqNote reason pa) := by
  unfold State.dqNote
  refine .ite ?_ h
  split
  · exact h.memFail
  · exact h

theorem dqComplete (h : s.Keeps t) {c i : Nat} : s.Keeps (t.dqComplete c i) := by
  unfold State.dqComplete
  extract_lets
  split
  · exact h.dqNote.dqReport
  · exact h.dqPut.dqPut

theorem dqAbandon (h : s.Keeps t) {c i : Nat} : s.Keeps (t.dqAbandon c i) := by
  unfold State.dqAbandon
  extract_lets
  split
  · exact h.dqNote.dqReport
  · exact h.dqPut.dqPut

theorem taskEnded (h : s.Keeps t) {c : Nat} : s.Keeps (t.taskEnded c) := by
  unfold State.taskEnded
  extract_lets _ s1 s2
  have hs1 : s.Keeps s1 := by
    dsimp only [s1]
    split
    · exact h.dqComplete
    · exact h
  have hs2 : s.Keeps s2 := hs1.modMon
  exact hs2.modCore.ite hs2

/-! ### Machine/System -/

theorem eretFault (h : s.Keeps t) {c cause : Nat} {info : Word} {fa : Pair} : s.Keeps (t.eretFault c cause info fa) :=
  h.enter

theorem eret (h : s.Keeps t) {c : Nat} : s.KeepsRes (t.eret c) := by
  unfold State.eret
  extract_lets _ _ bad
  clear_value bad
  refine .ite trivial ?_
  split
  · exact h.eretFault.stay
  · split
    · exact h.noteErr.eretFault.stay
    · extract_lets _ _ _ _ _ s'
      have hs' : s.Keeps s' := h.modMon.ite h
      refine .ite h.eretFault.stay (.ite h.eretFault.stay (.ite ?_ hs'.setCore.jump))
      exact hs'.setCore.enter.stay

theorem sysK (h : s.Keeps t) {x : Issue} {sh : Shape} {f : State → State} (hf : ∀ {u}, s.Keeps u → s.Keeps (f u)) :
    s.Keeps (t.sysK x sh f) := by
  unfold State.sysK
  exact h.issue fun h => (.ite trivial (hf h))

/-! ### Machine/Windows -/

theorem tickPhase (h : s.Keeps t) : s.Keeps t.tickPhase.2 :=
  h.fresh

theorem ctlRead (h : s.Keeps t) {by_ : Agent} {o : Nat} : s.Keeps (t.ctlRead by_ o).2 := by
  unfold State.ctlRead
  extract_lets _ s0 _ s1
  have hs0 : s.Keeps s0 := h.linDone.ite h
  have hs1 : s.Keeps s1 := by
    dsimp only [s1]
    refine .ite ?_ hs0
    split
    · exact hs0.update
    · exact hs0
  exact h.tickPhase.iteSnd ((hs1.ite hs1.ctlSet).pair)

theorem tickWrite (h : s.Keeps t) {o : Nat} {v : Word} : s.Keeps (t.tickWrite o v) := by
  unfold State.tickWrite
  extract_lets
  split
  · exact h.update
  · exact h.update
  · exact h.update.ite h
  · split
    · exact h.ctlSet.ite h
    · exact h
  · exact h.ctlPlain.ite h
  · exact h.ctlPlain

theorem flowWrite (h : s.Keeps t) {o : Nat} {v : Word} : s.Keeps (t.flowWrite o v) :=
  h.ctlPlain.ite (h.ctlPut.ite h)

theorem ephWrite (h : s.Keeps t) {by_ : Agent} {o : Nat} {v : Word} : s.Keeps (t.ephWrite by_ o v) := by
  unfold State.ephWrite
  extract_lets
  split
  · exact h.ite h.ctlPlain
  · exact h.ctlPlain.ite h
  · exact h.ctlPlain.ite h
  · exact h.ephOpenWrite
  · exact h.ephCommitWrite
  · exact h.ephDigLen
  · exact h.ephNote
  · exact h.ephRecov
  · exact (h.linFind.ite h).ite h.ctlPlain

theorem fabWrite (h : s.Keeps t) {o : Nat} {v : Word} : s.Keeps (t.fabWrite o v) := by
  unfold State.fabWrite
  extract_lets
  split
  · exact h.fabCtrl
  · exact h.fabShape
  · exact h.fabCoord
  · exact h.update
  · exact h.flowCmdWrite
  · exact h.fabPortCtrl.ite h.ctlPlain

theorem ctlWrite (h : s.Keeps t) {by_ : Agent} {o : Nat} {v : Word} : s.Keeps (t.ctlWrite by_ o v) :=
  h.ite (h.tickWrite.ite ((h.ite (h.semPut.ite (h.ctlPlain.ite h))).ite (h.ephWrite.ite (h.ceWrite.ite ((h.tcOpWrite.ite
    h.ctlPlain).ite ((h.dmaWrite.ite h).ite (h.fabWrite.ite ((h.cmbxPost.ite h.ctlPlain).ite (h.flowWrite.ite
    h.ctlPlain)))))))))

theorem agentWrite (h : s.Keeps t) {by_ : Agent} {o : Nat} {v : Word} : s.Keeps (t.agentWrite by_ o v) := by
  unfold State.agentWrite
  refine .ite h (.ite ?_ h.ctlWrite)
  split
  · exact h.enter
  · exact h

theorem agentRead (h : s.Keeps t) {by_ : Agent} {o : Nat} : s.Keeps (t.agentRead by_ o) := by
  unfold State.agentRead
  refine .ite h (.ite ?_ h.ctlRead.emit)
  split
  · exact h.enter
  · exact h

theorem dmaCommand (h : s.Keeps t) {by_ : Agent} {q r : Nat} {v : Word} : s.Keeps (t.dmaCommand by_ q r v) :=
  h.agentWrite.ite h

theorem flowCommand (h : s.Keeps t) {by_ : Agent} {f op : Nat} : s.Keeps (t.flowCommand by_ f op) :=
  h.agentWrite

theorem ceCommand (h : s.Keeps t) {by_ : Agent} {q r : Nat} {v : Word} : s.Keeps (t.ceCommand by_ q r v) :=
  h.agentWrite.ite h

/-! ### Machine/ScalarMem -/

theorem touchAll (h : s.Keeps t) {c : Nat} {l : List (Nat × Option PageAttr × Nat)} {write : Bool} :
    s.Keeps (t.touchAll c l write) :=
  h.foldl fun h => h.coreWrite.ite h.coreRead

theorem loadAcs (h : s.Keeps t) {c lvl : Nat} {a : Pair} {n : Nat} : s.KeepsAcs (t.loadAcs c lvl a n) := by
  unfold State.loadAcs
  refine .ite trivial (.ite trivial ?_)
  split
  · exact trivial
  · split
    · exact .ite trivial h.ctlRead.done
    · split
      · exact trivial
      · exact h.touchAll.done

theorem putAt (h : s.Keeps t) {l : List (Nat × Option PageAttr × Nat)} {b : List Byte} : s.Keeps (t.putAt l b) := by
  unfold State.putAt
  split
  · exact h.memPut.ite h.memQuiet.memQuiet.bumpAny
  · exact h.memPut
  · exact h

theorem storeAcs (h : s.Keeps t) {c lvl : Nat} {a : Pair} {b : List Byte} : s.KeepsAcs (t.storeAcs c lvl a b) := by
  unfold State.storeAcs
  refine .ite trivial (.ite trivial ?_)
  split
  · exact trivial
  · split
    · exact .ite trivial h.ctlWrite.done
    · split
      · exact trivial
      · exact h.touchAll.putAt.done

theorem amoAcs (h : s.Keeps t) {c lvl : Nat} {a : Pair} {op : Nat} {v e : Word} : s.KeepsAcs (t.amoAcs c lvl a op v e) := by
  unfold State.amoAcs
  refine .ite trivial (.ite trivial ?_)
  split
  · exact trivial
  · split
    · exact .ite (.ite h.semPut.done h.done) trivial
    · split
      · exact trivial
      · refine done (.ite ?_ (putAt ?_))
        · exact h.foldl fun h => h.atomicTouch
        · exact h.foldl fun h => h.atomicTouch

theorem accessRes (h : s.Keeps t) {x : Issue} {a : Pair} {need : Need} {dest : RemDest} {precise : Bool} {q : RemReq} {done : List Byte → State → Res}
    {acs : Acs} (hacs : s.KeepsAcs acs) (hdone : ∀ {l u}, s.Keeps u → s.KeepsRes (done l u)) :
    s.KeepsRes (t.accessRes x a need dest precise q done acs) := by
  cases acs with
  | done l u => exact hdone hacs
  | err e late => exact .ite h.noteErr.modCore trivial
  | denied => exact trivial
  | remote => exact h.remoteStart

theorem loadRes (h : s.Keeps t) {x : Issue} {sh : Shape} {a : Pair} {n log : Nat} {dest : RemDest} :
    s.KeepsRes (t.loadRes x sh a n log dest) := by
  unfold State.loadRes
  exact .ite trivial (h.accessRes h.loadAcs fun h => h.modCore)

theorem storeRes (h : s.Keeps t) {x : Issue} {sh : Shape} {a : Pair} {log : Nat} {b : List Byte} :
    s.KeepsRes (t.storeRes x sh a log b) := by
  unfold State.storeRes
  exact .ite trivial (h.accessRes h.storeAcs fun h => h)

theorem amoRes (h : s.Keeps t) {x : Issue} {sh : Shape} {a : Pair} {op : Nat} {d : Reg} {v : Word} :
    s.KeepsRes (t.amoRes x sh a op d v) := by
  unfold State.amoRes
  exact .ite trivial (h.accessRes h.amoAcs fun h => h.modCore)

theorem loadM (h : s.Keeps t) {x : Issue} {a : AReg} {i : Imm} {n log : Nat} {dest : RemDest} :
    s.Keeps (t.loadM x a i n log dest) := by
  unfold State.loadM
  exact h.issue fun h => h.loadRes

theorem storeM (h : s.Keeps t) {x : Issue} {a : AReg} {i : Imm} {log : Nat} {b : Core → List Byte} :
    s.Keeps (t.storeM x a i log b) := by
  unfold State.storeM
  exact h.issue fun h => h.storeRes

theorem stackRes (h : s.Keeps t) {x : Issue} {cause : Nat} {p : Pair} {n align lo hi : Nat} {store : Option (List Byte)} {dest : RemDest}
    {done : List Byte → State → Res} (hdone : ∀ {l u}, s.Keeps u → s.KeepsRes (done l u)) :
    s.KeepsRes (t.stackRes x cause p n align lo hi store dest done) := by
  unfold State.stackRes
  extract_lets
  split
  · exact trivial
  · split
    · rename_i l u he
      have hu : s.KeepsAcs (.done l u) := by
        rw [← he]
        cases store with
        | none => exact h.loadAcs
        | some b => exact h.storeAcs
      exact hdone hu
    · exact trivial
    · exact trivial
    · exact h.stay

theorem pushRes (h : s.Keeps t) {x : Issue} {b : List Byte} : s.KeepsRes (t.pushRes x b) := by
  unfold State.pushRes
  exact h.stackRes fun h => h.modCore

theorem popRes (h : s.Keeps t) {x : Issue} {n : Nat} {dest : RemDest} {f : List Byte → Core → Core} :
    s.KeepsRes (t.popRes x n dest f) := by
  unfold State.popRes
  exact h.stackRes fun h => h.modCore

theorem callRes (h : s.Keeps t) {x : Issue} {sh : Shape} {target : Pair} : s.KeepsRes (t.callRes x sh target) := by
  unfold State.callRes
  exact h.stackRes fun h => h.modCore

/-! ### Machine/Wide -/

theorem whoTouch (h : s.Keeps t) {w : Option Nat} {pa : Nat} {page : Option PageAttr} {write : Bool} :
    s.Keeps (t.whoTouch w pa page write) := by
  unfold State.whoTouch
  split
  · exact h.coreWrite.ite h.coreRead
  · exact h.agentTouch

theorem slotRead (h : s.Keeps t) {c : Option Nat} {l : List Piece} : s.Keeps (t.slotRead c l).2 := by
  unfold State.slotRead
  refine foldlOn Prod.snd (fun h => ?_) h.pair
  split
  · exact h.ctlRead
  · exact h.whoTouch

theorem wideRead (h : s.Keeps t) {c : Option Nat} {ls : List (List Piece)} : s.Keeps (t.wideRead c ls).2 := by
  unfold State.wideRead
  refine foldlOn Prod.snd (fun h => ?_) h.pair
  exact h.slotRead.pair

theorem piecePut (h : s.Keeps t) {c : Option Nat} {w : WPiece} : s.Keeps (t.piecePut c w) := by
  unfold State.piecePut
  extract_lets
  split
  · exact h.ctlWrite
  · exact h.whoTouch.memQuiet

theorem unitScrub (h : s.Keeps t) {w : WPiece} : s.Keeps (t.unitScrub w) := by
  unfold State.unitScrub
  split
  · exact h
  · split
    · exact h.scrub
    · exact h

theorem wideCells (h : s.Keeps t) {c : Option Nat} {ws : List WPiece} : s.Keeps (t.wideCells c ws).2.2 :=
  (h.foldl fun h => h.unitScrub).foldl fun h => h.piecePut

theorem wideWrite (h : s.Keeps t) {c : Option Nat} {l : List (List WPiece)} : s.Keeps (t.wideWrite c l).2 := by
  unfold State.wideWrite
  refine pair (bumpAny ?_)
  refine foldlOn (fun acc : List (Piece × Nat) × List (Nat × Nat) × State => acc.2.2) (fun h => ?_) h
  exact h.wideCells

theorem reportFails (h : s.Keeps t) {c : Nat} {l : List (Piece × Nat)} : s.Keeps (t.reportFails c l) :=
  h.foldl fun h => h.noteErr.modCore

theorem wideFault {need : Need} {e : WErr} {dest : Nat} {fa : Pair} : s.KeepsRes (wideFault need e dest fa) := by
  cases e <;> exact trivial

theorem wideLoad (h : s.Keeps t) {c lvl dest : Nat} {l : List Slot} {done : List (List Byte) → State → Res}
    (hdone : ∀ {a1 u}, s.Keeps u → s.KeepsRes (done a1 u)) :
    s.KeepsRes (t.wideLoad c lvl dest l done) := by
  unfold State.wideLoad
  split
  · exact wideFault
  · split
    · exact trivial
    · exact hdone h.wideRead

theorem wideStore (h : s.Keeps t) {c lvl : Nat} {l : List (List (Slot × List MByte))} : s.KeepsRes (t.wideStore c lvl l) := by
  unfold State.wideStore
  split
  · exact wideFault
  · exact h.wideWrite.reportFails.next

theorem rowLoad (h : s.Keeps t) {c lvl : Nat} {l : List Slot} {done : List (List Byte) → State → Res}
    (hdone : ∀ {a1 u}, s.Keeps u → s.KeepsRes (done a1 u)) :
    s.KeepsRes (t.rowLoad c lvl l done) := by
  unfold State.rowLoad
  split
  · extract_lets
    split
    · split
      · exact trivial
      · exact wideFault
    · exact wideFault
  · exact h.wideLoad hdone

/-! ### Machine/PlateMem -/

/-- The checks of a plate's rows answer with a fault. -/
theorem rowChk {need : Need} {code rows slots : Nat} {a stride : Pair} {r : Res}
    (e : rowChk need code rows slots a stride = some r) :
    s.KeepsRes r := by
  unfold Machine.rowChk at e
  extract_lets _ last at e
  split at e
  · cases e; exact trivial
  · split at e
    · cases e; exact trivial
    · obtain ⟨i, -, rfl⟩ := Option.map_eq_some_iff.mp e
      exact trivial

theorem pldRes (h : s.Keeps t) {x : Issue} {sh : Shape} {p : Nat} {a stride : Pair} : s.KeepsRes (t.pldRes x sh p a stride) := by
  unfold State.pldRes
  extract_lets
  split
  · exact trivial
  · split
    · next e => exact rowChk e
    · exact .ite h.setCore.stay h.setCore.next

theorem pldPut (h : s.Keeps t) {c : Nat} {o : PldOp} {l : List Byte} : s.Keeps (t.pldPut c o l) := by
  unfold State.pldPut
  extract_lets s1
  have hs1 : s.Keeps s1 := h.modCore
  exact hs1.ite hs1.modCore.retire

theorem execPldRowWrite (h : s.Keeps t) {c : Nat} : s.KeepsOut (execPldRowWrite c t) := by
  unfold Machine.execPldRowWrite
  extract_lets
  split
  · exact h
  · refine .ite h ?_
    split
    · next he => exact h.takePending he
    · refine .ite ?_ h.remoteStart
      exact h.finish (h.rowLoad fun h => h.pldPut.stay)

theorem remoteStores (h : s.Keeps t) {x : Issue} {sh : Shape} {l : List (Pair × List Slot × List Byte)} :
    s.Keeps (t.remoteStores x sh l) :=
  h.foldl fun h => h.remoteStart

theorem imageStore (h : s.Keeps t) {x : Issue} {sh : Shape} {l : List (Pair × List Slot × List Byte)} :
    s.KeepsRes (t.imageStore x sh l) := by
  unfold State.imageStore
  split
  · exact h
  · exact h.wideStore.ite h.remoteStores.stay

theorem pstRes (h : s.Keeps t) {x : Issue} {sh : Shape} {p : Nat} {a stride : Pair} : s.KeepsRes (t.pstRes x sh p a stride) := by
  unfold State.pstRes
  extract_lets
  split
  · exact trivial
  · split
    · next e => exact rowChk e
    · exact h.setCore.imageStore

/-- The checks of an image answer with a fault. -/
theorem imageChk {need : Need} {a : Pair} {l : List Slot} {r : Res} (e : imageChk need a l = some r) : s.KeepsRes r := by
  unfold Machine.imageChk at e
  split at e
  · cases e; exact trivial
  · obtain ⟨b, -, rfl⟩ := Option.map_eq_some_iff.mp e
    exact trivial

theorem putImage (h : s.Keeps t) {x : Issue} {sh : Shape} {a : Pair} {ws : List Word} : s.KeepsRes (t.putImage x sh a ws) := by
  unfold State.putImage
  extract_lets
  split
  · next e => exact imageChk e
  · exact h.imageStore

theorem plrsEnd (h : s.Keeps t) {c p : Nat} {ws : List Word} : s.KeepsRes (t.plrsEnd c p ws) :=
  .ite trivial h.modCore

theorem remoteImage (h : s.Keeps t) {x : Issue} {sh : Shape} {a : Pair} {n : Nat} {dest : RemDest} :
    s.KeepsRes (t.remoteImage x sh a n dest) :=
  h.remoteStart.stay

theorem plrsRes (h : s.Keeps t) {x : Issue} {sh : Shape} {p : Nat} {a : Pair} : s.KeepsRes (t.plrsRes x sh p a) := by
  unfold State.plrsRes
  extract_lets
  split
  · next e => exact imageChk e
  · refine .ite (h.rowLoad fun _ => ?_) h.remoteImage
    extract_lets
    split
    · next e => exact imageChk e
    · exact h.rowLoad fun h => h.plrsEnd

theorem arrsEnd (h : s.Keeps t) {c : Nat} {ws : List Word} : s.KeepsRes (t.arrsEnd c ws) :=
  .ite trivial h.modCore

theorem arrsRes (h : s.Keeps t) {x : Issue} {sh : Shape} {a : Pair} : s.KeepsRes (t.arrsRes x sh a) := by
  unfold State.arrsRes
  extract_lets
  split
  · next e => exact imageChk e
  · refine .ite (h.rowLoad fun _ => ?_) h.remoteImage
    extract_lets
    split
    · next e => exact imageChk e
    · exact h.rowLoad fun h => h.arrsEnd

/-! ### Machine/DmaRun -/

theorem read {m : DmaAcc} (h : s.Keeps m.st) {q : Nat} {hz : Option Nat} {p : Pair × Nat} :
    s.Keeps (DmaAcc.read q hz m p).st := by
  unfold DmaAcc.read
  split
  · exact h
  · split
    · exact h
    · split
      · exact h.ctlRead
      · exact h.agentTouch

theorem write {m : DmaAcc} (h : s.Keeps m.st) {q : Nat} {hz : Option Nat} {p : Pair × Nat} :
    s.Keeps (DmaAcc.write q hz m p).st := by
  unfold DmaAcc.write
  extract_lets
  split
  · exact h
  · split
    · exact h
    · extract_lets t'
      have ht' : s.Keeps t' := by
        dsimp only [t']
        split
        · exact h.ctlWrite
        · exact h.agentTouch.memPut
      exact ht'

theorem dmaReads (h : s.Keeps t) {q : Nat} {hz : Option Nat} {l : List (Pair × Nat)} : s.Keeps (t.dmaReads q hz l).st :=
  foldlOn DmaAcc.st (fun h => h.read) h

theorem dmaWrites (h : s.Keeps t) {q : Nat} {hz : Option Nat} {l : List (Pair × Nat)} {b : List Byte} :
    s.Keeps (t.dmaWrites q hz l b).st :=
  foldlOn DmaAcc.st (fun h => h.write) h

theorem dmaEnd (h : s.Keeps t) {q status bytes high : Nat} {w3 : Word} {release : Bool} :
    s.Keeps (t.dmaEnd q status bytes high w3 release) := by
  unfold State.dmaEnd
  extract_lets
  split
  · exact h
  · exact h.setDmaState.setDmaX

theorem dmaRunDesc (h : s.Keeps t) {q : Nat} {d : DmaDesc} {bad : Bool} : s.Keeps (t.dmaRunDesc q d bad) := by
  unfold State.dmaRunDesc
  extract_lets s1
  have hs1 : s.Keeps s1 := h.dmaQuiet.setDmaState.modDmaX
  exact hs1.dmaEnd.ite hs1

theorem dmaNoDesc (h : s.Keeps t) {q : Nat} {e : XErr × Pair × Bool} : s.Keeps (t.dmaNoDesc q e) := by
  unfold State.dmaNoDesc
  exact h.fresh.dmaFault.setDmaState.modDmaX

theorem dmaGetWord (h : s.Keeps t) {q i : Nat} {res : RemRes} : s.Keeps (t.dmaGetWord q i res).2 := by
  unfold State.dmaGetWord
  extract_lets
  split
  · exact h.pair
  · split
    · split
      · exact h.pair
      · split
        · exact h.dmaSend.pair
        · exact h.dmaSend.pair
        · exact h.pair
    · split
      · exact h.pair
      · split
        · exact h.ctlRead
        · exact h.agentTouch.pair

theorem dmaGetWords (h : s.Keeps t) {q i : Nat} {res : RemRes} {n : Nat} : s.Keeps (t.dmaGetWords q i res n).2 := by
  induction n generalizing t i with
  | zero => exact h.pair
  | succ n ih =>
    unfold State.dmaGetWords
    split
    · next he => exact (h.dmaGetWord.snd he).pair
    · rename_i he
      have hw := h.dmaGetWord.snd he
      split
      · next he => exact ((ih hw).snd he).pair
      · next he => exact ((ih hw).snd he).pair

theorem dmaTake (h : s.Keeps t) {q unit : Nat} {d : DmaDesc} : s.Keeps (t.dmaTake q unit d) :=
  h.setDmaState.ctlPut.modDmaX.ite h.dmaRunDesc

theorem dmaFetch (h : s.Keeps t) {q unit : Nat} {res : RemRes} : s.Keeps (t.dmaFetch q unit res) := by
  unfold State.dmaFetch
  extract_lets _ s1
  have hs1 : s.Keeps s1 := h.ctlPut.ite h
  refine .ite h ?_
  split
  · next he => exact (hs1.dmaGetWord.snd he).dmaNoDesc
  · rename_i he
    have h2 := hs1.dmaGetWord.snd he
    refine .ite h2.modDmaX ?_
    split
    · next he => exact (h2.dmaGetWords.snd he).dmaNoDesc
    · next he => exact (h2.dmaGetWords.snd he).modDmaX.dmaTake

theorem dmaPhase (h : s.Keeps t) {q unit : Nat} : s.Keeps (t.dmaPhase q unit) := by
  unfold State.dmaPhase
  extract_lets
  split
  · exact h.ite (h.dmaRunDesc.ite (h.setDmaX.dmaRunDesc.ite h))
  · exact h

theorem dmaFailed (h : s.Keeps t) {q bytes : Nat} {e : Pair × XErr} {write remote : Bool} {high : Nat} {w3 : Word} :
    s.Keeps (t.dmaFailed q bytes e write remote high w3) :=
  h.dmaFault.dmaEnd

theorem dmaOverlap (h : s.Keeps t) {s0 : State} {q : Nat} {d : DmaDesc} : s.Keeps (t.dmaOverlap s0 q d) :=
  h.foldl fun h => h.fresh.memQuiet

theorem dmaSource (h : s.Keeps t) {q : Nat} {d : DmaDesc} {res : RemRes} : s.Keeps (t.dmaSource q d res).1.st := by
  unfold State.dmaSource
  split
  · split
    · exact h
    · extract_lets t'
      have ht' : s.Keeps t' := h.dmaSend
      split
      · exact ht'
      · exact ht'
      · exact ht'
  · exact h.dmaReads

/-- The state of an accumulator that a pair of one and a flag gives. -/
theorem accFst {p : DmaAcc × Bool} (h : s.Keeps p.1.st) {m : DmaAcc} {far : Bool} (e : p = (m, far)) : s.Keeps m.st := by
  subst e; exact h

theorem dmaDest (h : s.Keeps t) {q : Nat} {d : DmaDesc} {b : List Byte} {res : RemRes} : s.Keeps (t.dmaDest q d b res).1.st := by
  unfold State.dmaDest
  split
  · split
    · exact h
    · extract_lets t'
      have ht' : s.Keeps t' := h.dmaSend
      split
      · exact ht'
      · exact ht'
  · exact h.dmaWrites

theorem dmaMove (h : s.Keeps t) {q : Nat} {d : DmaDesc} {res : RemRes} {part : Bool} {f : List Byte → List Byte} :
    s.Keeps (t.dmaMove q d res part f) := by
  unfold State.dmaMove
  split
  rename_i he
  have hm := h.dmaSource.accFst he
  extract_lets
  split
  rename_i he
  have hw := hm.dmaDest.accFst he
  extract_lets s1
  have hs1 : s.Keeps s1 := hw.ite hw.dmaOverlap
  split
  · exact hs1.dmaFailed
  · exact hs1.dmaFailed
  · exact hs1.dmaEnd

theorem dmaOp (h : s.Keeps t) {q op : Nat} {f : DmaDesc → State} (hf : ∀ {d}, s.Keeps (f d)) : s.Keeps (t.dmaOp q op f) := by
  unfold State.dmaOp
  extract_lets
  split
  · exact hf.ite h
  · exact h

theorem dmaConvert (h : s.Keeps t) {q : Nat} {d : DmaDesc} {res : RemRes} : s.Keeps (t.dmaConvert q d res) := by
  unfold State.dmaConvert
  split
  rename_i he
  have hm := h.dmaSource.accFst he
  extract_lets
  refine .ite ?_ ?_
  · split
    · exact hm.ctlSet.dmaFailed
    · exact hm.ctlSet.dmaEnd
  · split
    rename_i he
    have hw := hm.ctlSet.ctlSet.modDmaX.dmaDest.accFst he
    extract_lets s2
    have hs2 : s.Keeps s2 := hw.ite hw.dmaOverlap
    split
    · exact hs2.dmaFailed
    · exact hs2.dmaFailed
    · exact hs2.dmaEnd

/-! ### Machine/VectorMem -/

theorem vecAccess (h : s.Keeps t) {x : Issue} {sh : Shape} {v : VecAcc} {need : Need} {dest : RemDest} {go : State → List Slot → Res}
    {bytes : List MByte} (hgo : ∀ {u l}, s.Keeps u → s.KeepsRes (go u l)) : s.KeepsRes (t.vecAccess x sh v need dest go bytes)
      := by
  unfold State.vecAccess
  extract_lets _ l
  clear_value l
  split
  · exact trivial
  · split
    · exact hgo h
    · refine .ite (hgo h) ?_
      split
      · exact trivial
      · exact h.remoteStart.stay

theorem vecLoad (h : s.Keeps t) {x : Issue} {sh : Shape} {v : VecAcc} {d : Reg} : s.KeepsRes (t.vecLoad x sh v d) := by
  unfold State.vecLoad
  exact h.vecAccess fun h => h.wideLoad fun h => h.modCore

theorem vecStore (h : s.Keeps t) {x : Issue} {sh : Shape} {v : VecAcc} {d : Reg} : s.KeepsRes (t.vecStore x sh v d) := by
  unfold State.vecStore
  exact h.vecAccess fun h => h.wideStore

/-! ### Machine/RemoteRun -/

theorem serveRead (h : s.Keeps t) {r : Rx} : s.Keeps (t.serveRead r).2 := by
  unfold State.serveRead
  split
  · exact h.pair
  · split
    · exact h.memFail.pair
    · exact h.wideRead

theorem serveWrite (h : s.Keeps t) {r : Rx} : s.Keeps (t.serveWrite r).2 := by
  unfold State.serveWrite
  split
  · exact h.pair
  · split
    · rename_i he
      have h2 := h.wideWrite.snd he
      extract_lets t1
      have ht1 : s.Keeps t1 := h2.foldl fun h => h.memFail
      split
      · exact ht1.pair
      · exact ht1.pair

theorem serveAtomic (h : s.Keeps t) {r : Rx} : s.Keeps (t.serveAtomic r).2 := by
  unfold State.serveAtomic
  extract_lets
  split
  · exact h.pair
  · split
    · extract_lets _ t'
      have ht' : s.Keeps t' := h.atomicTouch
      split
      · exact (h.semPut.iteSnd h.pair).iteSnd h.pair
      · split
        · exact h.memFail.pair
        · exact (ht'.ite ht'.memPut).pair
    · exact h.pair

theorem perform (h : s.Keeps t) {r : Rx} : s.Keeps (t.perform r).2 := by
  unfold State.perform
  split
  · exact h.serveRead
  · exact h.serveAtomic
  · exact h.serveWrite

theorem flowAnswer (h : s.Keeps t) {f pseq : Nat} {body : List Byte} : s.Keeps (t.flowAnswer f pseq body) := by
  unfold State.flowAnswer
  extract_lets s1
  have hs1 : s.Keeps s1 := h.ctlCount
  split
  · next he => exact hs1.launch.snd he
  · next he => exact (hs1.launch.snd he).flowBreak

theorem performAnswer (h : s.Keeps t) {f : Nat} {r : Rx} : s.Keeps (t.performAnswer f r) :=
  h.perform.ite h.perform.flowAnswer

theorem performHeld (h : s.Keeps t) {f : Nat} {sh : Held} : s.Keeps (t.performHeld f sh) := by
  unfold State.performHeld
  extract_lets t'
  have ht' : s.Keeps t' := h.ctlPut.ctlCount
  split
  · exact ht'.performAnswer
  · exact ht'.ceRx

theorem performFrom (h : s.Keeps t) {f n : Nat} {r : Held} : s.Keeps (t.performFrom f r n) := by
  induction n generalizing t r with
  | zero => exact h
  | succ n ih =>
    unfold State.performFrom
    extract_lets s1
    have hs1 : s.Keeps s1 := h.performHeld
    split
    · exact hs1
    · exact ih hs1.modFlowX.ctlPut

theorem receive (h : s.Keeps t) {f : Nat} {r : Held} : s.Keeps (t.receive f r) :=
  h.ite (h.performFrom.linksGo.ite (h.modFlowX.ctlPut.ite h))

theorem dropRemote (h : s.Keeps t) {c : Nat} : s.Keeps (t.dropRemote c) :=
  h.update.foldl fun h => h.flowAnswered.ite h

theorem remoteDone (h : s.Keeps t) {r : RemReq} {b : List Byte} : s.Keeps (t.remoteDone r b) := by
  unfold State.remoteDone
  extract_lets s1
  have hs1 : s.Keeps s1 := h.update
  split
  · exact hs1.ite hs1.retire
  · exact hs1.modCore.retire
  · split
    · exact hs1.pldPut
    · exact hs1
  · exact hs1.remoteStart.ite (hs1.finish hs1.plrsEnd)
  · exact hs1.remoteStart.ite (hs1.finish hs1.arrsEnd)
  · exact hs1.modCore.retire

theorem execResp (h : s.Keeps t) {f pseq : Nat} {res : RemRes} : s.KeepsOut (execResp f pseq res t) := by
  unfold Machine.execResp
  extract_lets s0
  have hs0 : s.Keeps s0 := h.flowAnswered
  split
  · exact h
  · split
    · exact hs0.remoteDone
    · exact hs0.remoteFailAt
    · exact hs0.remoteFailAt
    · exact hs0.update.dropRemote.remoteFailAt

theorem l1iFill (h : s.Keeps t) {c line : Nat} : s.Keeps (t.l1iFill c line) :=
  h.update

theorem requestFailed (h : s.Keeps t) {c : Nat} {a : MemAcc} {src pa : Nat} : s.Keeps (t.requestFailed c a src pa) := by
  unfold State.requestFailed
  extract_lets
  refine .ite h ?_
  split
  · exact h.modCore
  · exact h.modCore
  · exact h
  · exact h

theorem execMemoryRequestComplete (h : s.Keeps t) {agent pa : Nat} {write : Bool} {det : Detect} {bank : Nat} :
    s.KeepsOut (execMemoryRequestComplete agent pa write det bank t) := by
  unfold Machine.execMemoryRequestComplete
  extract_lets
  split
  · exact h
  · extract_lets
    split
    · rename_i he
      have h3 := h.update.detect.snd he
      extract_lets t' s3
      have ht' : s.Keeps t' := h3.ite h3.fillLine
      have hs3 : s.Keeps s3 := by
        dsimp only [s3]
        split
        · exact ht'.l1iFill.ite ht'
        · exact h3.requestFailed.ite ((h3.dmaFault.ctlPut.dmaEnd.ite h3).ite h3)
      exact hs3.admitNext

/-! ### Machine/TickUnit -/

theorem tickStaged (h : s.Keeps t) {o : Nat} {x : Option Word} : s.Keeps (t.tickStaged o x) := by
  unfold State.tickStaged
  split
  · exact h
  · exact h.ctlSet

theorem tickTake (h : s.Keeps t) : s.Keeps t.tickTake :=
  h.tickStaged.tickStaged.tickStaged.update

theorem tickLock (h : s.Keeps t) : s.Keeps t.tickLock := by
  unfold State.tickLock
  extract_lets _ s1
  have hs1 : s.Keeps s1 := h.ctlPut.update
  exact (hs1.ite hs1.setPeriod).ite h

theorem tickHold (h : s.Keeps t) : s.Keeps t.tickHold :=
  ((h.ctlPut.ctlPut.update.ite h.ctlCount).ite (h.update.ite (h.ctlPut.tickEvent.tickEvent.update.ite h.update))).ite h.update

theorem tickMaster (h : s.Keeps t) : s.Keeps t.tickMaster := by
  unfold State.tickMaster
  split
  · exact h
  · exact h.ite h.ctlSet.tickEvent

theorem tickUnit (h : s.Keeps t) : s.Keeps t.tickUnit := by
  unfold State.tickUnit
  extract_lets s1
  have hs1 : s.Keeps s1 := h.update.tickTake.seedDropTick.lockGone.tickMaster
  exact (hs1.ite hs1.setPeriod).tickLock.tickHold

theorem sendSync (h : s.Keeps t) : s.Keeps t.sendSync :=
  (h.foldl fun h => h.fresh.controlOut).ite h

theorem sampleAll (h : s.Keeps t) : s.Keeps t.sampleAll :=
  h.foldl fun h => h.ite h.modCore

theorem syncStatus (h : s.Keeps t) {skew master depth : Nat} : s.Keeps (t.syncStatus skew master depth) :=
  h.ctlPut.ctlPut.update

theorem syncAnnounce (h : s.Keeps t) {x : Option (Nat × Word)} : s.Keeps (t.syncAnnounce x) := by
  unfold State.syncAnnounce
  split
  · exact h
  · exact h.ctlSet.ctlSet.update

theorem syncStep (h : s.Keeps t) {n : Nat} : s.Keeps (t.syncStep n) :=
  h.ite h.update.tickEvent

theorem syncFree (h : s.Keeps t) {n skew master depth period : Nat} {ann : Option (Nat × Word)} :
    s.Keeps (t.syncFree n skew master depth period ann) := by
  unfold State.syncFree
  extract_lets _ _ s2
  have hs2 : s.Keeps s2 := (h.ite h.syncStep).syncStatus.syncAnnounce.update
  exact (hs2.ctlPut.ite hs2).ite (hs2.ctlPut.ctlPut.update.tickEvent.ite hs2)

theorem syncLocked (h : s.Keeps t) {n skew master depth period : Nat} {ann : Option (Nat × Word)} :
    s.Keeps (t.syncLocked n skew master depth period ann) := by
  unfold State.syncLocked
  extract_lets _ s1
  have hs1 : s.Keeps s1 := h.syncStatus.syncAnnounce.update
  exact h.loseLock.ite (hs1.tickEvent.ite hs1.update)

theorem slotsEnd (h : s.Keeps t) : s.Keeps t.slotsEnd :=
  h.update.linksGo

theorem execScheduleStartAtTick (h : s.Keeps t) : s.KeepsOut (execScheduleStartAtTick t) := by
  unfold Machine.execScheduleStartAtTick
  extract_lets
  split
  · exact h
  · exact h.update.slotsEnd

theorem execSlotStart (h : s.Keeps t) {p unit : Nat} : s.KeepsOut (execSlotStart p unit t) := by
  unfold Machine.execSlotStart
  extract_lets
  split
  · exact h
  · split
    · exact h
    · exact .ite h h.update.linksGo.ceKickAll.pump

/-! ### Machine/Tasks -/

theorem memCoreReset (h : s.Keeps t) {c : Nat} : s.Keeps (t.memCoreReset c) :=
  h.update

theorem coreReset (h : s.Keeps t) {c : Nat} : s.Keeps (t.coreReset c) :=
  h.dropRemote.arbCoreReset.memCoreReset.setCore.modMon

theorem monitorBoot (h : s.Keeps t) {c : Nat} : s.Keeps (t.monitorBoot c) := by
  unfold State.monitorBoot
  exact h.modCore

theorem retireCore (h : s.Keeps t) {c reason : Nat} : s.Keeps (t.retireCore c reason) :=
  h.ite h.coreReset.update.ctlPut.ephEvent.ephFault.hostEvent.logAdd

theorem execCoreResetSequence (h : s.Keeps t) {c : Nat} : s.KeepsOut (execCoreResetSequence c t) := by
  unfold Machine.execCoreResetSequence
  extract_lets _ _ s1
  have hs1 : s.Keeps s1 := h.coreReset.update
  refine .ite h ?_
  split
  · exact hs1.retireCore.ite hs1
  · exact h.coreReset
  · exact h.monitorBoot.ite h
  · exact h

theorem raisePend (h : s.Keeps t) {c : Nat} : s.Keeps (t.raisePend c) :=
  h.setCore.enter.ite h

theorem startTask (h : s.Keeps t) {c : Nat} {e : Pair × Word × Word} {kind : TaskKind} {frame : Nat} :
    s.Keeps (t.startTask c e kind frame) :=
  h.modCore.modMon.raisePend

theorem tickReturn (h : s.Keeps t) {c : Nat} : s.Keeps (t.tickReturn c) := by
  have he := h.eret (c := c)
  unfold State.tickReturn
  extract_lets t1
  have ht1 : s.Keeps t1 := by
    dsimp only [t1]
    split
    · next e => rw [e] at he; exact modCore he
    · next e => rw [e] at he; exact he
    · exact h
  exact ht1.modCore.ite ht1

theorem idleAtM (h : s.Keeps t) {c : Nat} : s.Keeps (t.idleAtM c) :=
  h.modCore.modMon

theorem raiseOverrun (h : s.Keeps t) {c : Nat} {abandoned : Bool} : s.Keeps (t.raiseOverrun c abandoned) := by
  unfold State.raiseOverrun
  exact h.modCore

theorem dropTask (h : s.Keeps t) {c : Nat} : s.Keeps (t.dropTask c) :=
  h.modCore

theorem frameGo (h : s.Keeps t) {c : Nat} : s.Keeps (t.frameGo c) := by
  unfold State.frameGo
  split
  · exact h.startTask
  · exact h.idleAtM

theorem carryTask (h : s.Keeps t) {c : Nat} : s.Keeps (t.carryTask c) :=
  h.modCore.modMon

theorem overrun (h : s.Keeps t) {c : Nat} : s.Keeps (t.overrun c) := by
  unfold State.overrun
  extract_lets
  split
  · exact h.carryTask.tickReturn
  · exact h.modCore.tickReturn.ite h.dqAbandon.dropTask.frameGo
  · exact h.raiseOverrun.carryTask.tickReturn.ite h.raiseOverrun.dropTask.frameGo

theorem execFrameTaskStart (h : s.Keeps t) {c : Nat} : s.KeepsOut (execFrameTaskStart c t) := by
  unfold Machine.execFrameTaskStart
  extract_lets
  refine .ite h ?_
  refine .ite ?_ ?_
  · refine .ite h.overrun ?_
    split
    · exact h.startTask
    · exact h.modMon.tickReturn
  · split
    · split
      · exact .ite h.startTask h
      · exact h.modMon.ite h
    · exact h

theorem dqServe (h : s.Keeps t) {c ns n : Nat} : s.Keeps (t.dqServe c ns n) := by
  induction n generalizing t with
  | zero => exact h
  | succ n ih =>
    unfold State.dqServe
    extract_lets
    split
    · exact h.dqNote.dqReport
    · refine .ite h.dqReport (.ite h ?_)
      split
      · exact h.dqNote.dqReport
      · refine .ite h (.ite ?_ (.ite h ?_))
        · split
          · exact h.dqNote.dqReport
          · exact ih h.dqPut.dqPut.dqPut
        · split
          · exact h.dqNote.dqReport
          · exact h.dqPut.startTask

theorem execDeferredServe (h : s.Keeps t) {c ns : Nat} : s.KeepsOut (execDeferredServe c ns t) := by
  unfold Machine.execDeferredServe
  extract_lets _ s1
  have hs1 : s.Keeps s1 := h.modMon
  exact .ite h (.ite hs1 hs1.dqServe)

theorem raiseAtK (h : s.Keeps t) {c : Nat} {d : DueCause} : s.Keeps (t.raiseAtK c d) :=
  h.modCore

theorem treated (h : s.Keeps t) {c : Nat} {d : DueCause} : s.Keeps (t.treated c d) :=
  h.modMon

theorem treatM (h : s.Keeps t) {c : Nat} : s.Keeps (t.treatM c) := by
  unfold State.treatM
  extract_lets
  split
  · exact h.treated.machineCheck.coreReset
  · split
    · exact h
    · extract_lets s2
      have hs2 : s.Keeps s2 := h.treated.raiseAtK
      have he := hs2.eret (c := c)
      refine .ite h.treated.raiseAtK (.ite ?_ h)
      split
      · next e => rw [e] at he; exact modCore he
      · next e => rw [e] at he; exact he
      · exact hs2

theorem execExceptionEntry (h : s.Keeps t) {c : Nat} : s.KeepsOut (execExceptionEntry c t) := by
  unfold Machine.execExceptionEntry
  refine .ite h ?_
  split
  · next he => exact h.takePending he
  · exact h.treatM

theorem execDeferredErrorReport (h : s.Keeps t) {c : Nat} {mem : Bool} {access n dkind dreg : Nat} {acc : Nat × Pair} :
    s.KeepsOut (execDeferredErrorReport c mem access n dkind dreg acc t) := by
  unfold Machine.execDeferredErrorReport
  extract_lets _ s1
  have hs1 : s.Keeps s1 := by
    dsimp only [s1]
    refine .ite ?_ h
    split
    · exact h.memFail
    · exact h
  exact .ite h hs1.modCore

theorem abandonTask (h : s.Keeps t) {c : Nat} : s.Keeps (t.abandonTask c) := by
  unfold State.abandonTask
  extract_lets _ t'
  have ht' : s.Keeps t' := h.ite h.enter
  split
  · exact ht'
  · exact ht'
  · exact ht'.raiseOverrun.dropTask.idleAtM.modMon

theorem tasksStop (h : s.Keeps t) : s.Keeps t.tasksStop :=
  h.update.slotsEnd.foldl fun h => h.abandonTask.ite h.modMon

theorem dmaStopAll (h : s.Keeps t) : s.Keeps t.dmaStopAll :=
  h.foldl fun h => h.dmaWrite

theorem ceStopAll (h : s.Keeps t) {step : Nat} : s.Keeps (t.ceStopAll step) := by
  unfold State.ceStopAll
  exact (h.ceRollback.foldl fun h => h.flowCmd).foldl fun h => h.ceMemberLost

theorem execRollbackAtTick (h : s.Keeps t) : s.KeepsOut (execRollbackAtTick t) := by
  unfold Machine.execRollbackAtTick
  extract_lets _ s11
  have hs11 : s.Keeps s11 := h.modEph
  split
  · exact .ite h h.modEph.tasksStop.dmaStopAll.ceStopAll.ephAppend.closeRecord.ephEvent.hostEvent
  · split
    · exact h
    · exact .ite h ((hs11.foldl fun h => h.ite h.dmaWrite).ite hs11)

/-! ### Machine/Mailbox -/

theorem msixFlush (h : s.Keeps t) {v : Nat} : s.Keeps (t.msixFlush v) :=
  h.barSet.emit.ite h

theorem msixWrite (h : s.Keeps t) {o : Nat} {v : Reg32} : s.Keeps (t.msixWrite o v) :=
  h.barSet.msixFlush.ite h.barSet

theorem msixControl (h : s.Keeps t) {v : Reg32} : s.Keeps (t.msixControl v) := by
  unfold State.msixControl
  extract_lets s1
  have hs1 : s.Keeps s1 := h.update
  exact .ite (hs1.foldl fun h => h.msixFlush) hs1

theorem modRanas (h : s.Keeps t) {f : Ranas → Ranas} : s.Keeps (t.modRanas f) :=
  h.update

theorem barBytes (h : s.Keeps t) {o : Nat} {l : List Byte} : s.Keeps (t.barBytes o l) :=
  h.foldl fun h => h.barSet

theorem mbxPost (h : s.Keeps t) {n : Nat} : s.Keeps (t.mbxPost n) :=
  h.barSet.ite h.barSet.barSet.barSet.barBytes.modRanas

theorem mbxWrite (h : s.Keeps t) {n r : Nat} {v : Reg32} : s.Keeps (t.mbxWrite n r v) :=
  (h.mbxPost.ite h).ite ((h.barSet.ite h).ite (h.ite (h.barSet.ite (h.barSet.ite (h.barSet.ite h)))))

theorem mbxResRead (h : s.Keeps t) {n : Nat} : s.Keeps (t.mbxResRead n).2 :=
  h.barSet.pair.iteSnd h.pair

theorem barWrite (h : s.Keeps t) {o : Nat} {v : Reg32} : s.Keeps (t.barWrite o v) :=
  h.msixControl.ite (h.ite (h.barSet.ite (h.barSet.ite (h.mbxWrite.ite (h.msixWrite.ite h)))))

theorem barRead (h : s.Keeps t) {o : Nat} : s.Keeps (t.barRead o).2 :=
  h.pair.iteSnd (h.mbxResRead.iteSnd (h.barSet.pair.iteSnd h.pair))

theorem execRegisterWrite (h : s.Keeps t) {by_ : Agent} {o : Nat} {v : Word} : s.KeepsOut (execRegisterWrite by_ o v t) := by
  unfold Machine.execRegisterWrite
  split
  · exact h.barWrite
  · exact h.agentWrite

theorem execReadClear (h : s.Keeps t) {by_ : Agent} {o : Nat} : s.KeepsOut (execReadClear by_ o t) := by
  unfold Machine.execReadClear
  split
  · exact h.barRead.emit
  · exact h.agentRead

theorem no (h : s.Keeps t) {rc : Nat} : s.Keeps (t.no rc).st :=
  h

theorem ok (h : s.Keeps t) {pay : List Byte} : s.Keeps (t.ok pay).st :=
  h

theorem internal (h : s.Keeps t) {p : Post} {code : Nat} : s.Keeps (t.internal p code).st :=
  h.logAdd

theorem command (h : s.Keeps t) {n op : Nat} {f : Post → State → CmdRes} (hf : ∀ {p u}, s.Keeps u → s.Keeps (f p u).st) :
    s.Keeps (t.command n op f) := by
  unfold State.command
  split
  · exact h
  · exact h.ite (iteSt (hf h) h.no).modRanas

theorem mbxResult (h : s.Keeps t) {d : CmdDone} : s.Keeps (t.mbxResult d) := by
  unfold State.mbxResult
  extract_lets _ _ _ s3
  have hs3 : s.Keeps s3 := h.barBytes.barSet.barSet.barSet
  exact hs3.msix.ite hs3

theorem execCommandComplete (h : s.Keeps t) {n : Nat} : s.KeepsOut (execCommandComplete n t) := by
  unfold Machine.execCommandComplete
  split
  · exact h.mbxResult.modRanas
  · split
    · exact h
    · exact .ite h h.mbxResult.modRanas

theorem abandonAll (h : s.Keeps t) : s.Keeps t.abandonAll := by
  unfold State.abandonAll
  exact (h.foldl fun h => h.mbxResult.ite h).modRanas

/-! ### Machine/Commands -/

theorem freeField (h : s.Keeps t) {n : Nat} : s.Keeps (t.freeField n).2 :=
  h.fresh

theorem getIdentity (h : s.Keeps t) {p : Post} : s.Keeps (t.getIdentity p).st := by
  unfold State.getIdentity
  extract_lets
  exact iteSt h.ok (iteSt h.no h.ok)

theorem getStatus (h : s.Keeps t) : s.Keeps t.getStatus.st := by
  unfold State.getStatus
  exact (((h.freeField (n := 4)).freeField (n := 2)).freeField (n := 2)).ok

theorem getLog (h : s.Keeps t) {p : Post} : s.Keeps (t.getLog p).st :=
  h.ok

theorem runtimeStart (h : s.Keeps t) {p : Post} : s.Keeps (t.runtimeStart p).st := by
  unfold State.runtimeStart
  extract_lets
  exact iteSt h.no (iteSt h.no (iteSt h.no (iteSt h.no (iteSt h.internal (iteSt h.no ((h.foldl fun h => (h.ite
    h.modCore).modMon.startTask).ok))))))

theorem coreResetCmd (h : s.Keeps t) {p : Post} : s.Keeps (t.coreResetCmd p).st := by
  unfold State.coreResetCmd
  extract_lets
  exact iteSt h.no (iteSt h.no (iteSt h.no ((h.retireCore.ite h.coreReset).ok)))

theorem schedInstall (h : s.Keeps t) {p : Post} : s.Keeps (t.schedInstall p).st := by
  unfold State.schedInstall
  extract_lets
  refine iteSt h.no (iteSt h.no (iteSt h.no (iteSt h.no (iteSt h.internal ?_))))
  split
  · exact h
  · split
    · exact h
    · exact h.update.ok

theorem schedStart (h : s.Keeps t) {p : Post} : s.Keeps (t.schedStart p).st := by
  unfold State.schedStart
  extract_lets
  exact iteSt h.no (iteSt h.no (iteSt h.no h.update.ok))

theorem schedStop (h : s.Keeps t) {p : Post} : s.Keeps (t.schedStop p).st := by
  unfold State.schedStop
  extract_lets
  exact iteSt h.no h.update.ok

theorem dqSet (h : s.Keeps t) {p : Post} : s.Keeps (t.dqSet p).st := by
  unfold State.dqSet
  extract_lets
  exact iteSt h.no (iteSt h.no h.update.ok)

theorem tickSet (h : s.Keeps t) {p : Post} : s.Keeps (t.tickSet p).st := by
  unfold State.tickSet
  extract_lets _ _ _ _ _ _ s1
  have hs1 : s.Keeps s1 := h.tickWrite.tickWrite
  exact iteSt h.no (iteSt h.no ((hs1.tickWrite.tickWrite.ite hs1).tickWrite.ok))

theorem fabConfig (h : s.Keeps t) {p : Post} : s.Keeps (t.fabConfig p).st := by
  unfold State.fabConfig
  extract_lets _ _ _ _ _ _ s2
  have hs2 : s.Keeps s2 := h.fabShape.fabCoord.ctlSet.ctlSet
  exact iteSt h.no (iteSt h.no ((hs2.ctlPut.ite hs2).ok))

theorem fabControl (h : s.Keeps t) {f : State → State} (hf : ∀ {u}, s.Keeps u → s.Keeps (f u)) : s.Keeps (t.fabControl f).st :=
  (hf h).ok

theorem fabPortOp (h : s.Keeps t) {p : Post} {v : Word} : s.Keeps (t.fabPortOp p v).st := by
  unfold State.fabPortOp
  exact iteSt h.no (iteSt h.no (h.fabControl fun h => h.fabPortCtrl))

theorem fabMembers (h : s.Keeps t) {p : Post} : s.Keeps (t.fabMembers p).st := by
  unfold State.fabMembers
  extract_lets
  exact iteSt h.no h.ok

theorem cxlMap (h : s.Keeps t) {p : Post} : s.Keeps (t.cxlMap p).st := by
  unfold State.cxlMap
  extract_lets _ _ _ _ _ _ _ _ _ _ u
  have hu : s.Keeps u := h.update
  exact iteSt h.no (iteSt h.no (iteSt h.no (iteSt h.no (hu.freeField (n := 4)).ok)))

theorem memPools (h : s.Keeps t) {p : Post} : s.Keeps (t.memPools p).st := by
  unfold State.memPools
  extract_lets
  exact iteSt h.no h.update.admitCxl.pumpAll.ok

theorem remoteTimeoutCmd (h : s.Keeps t) {p : Post} : s.Keeps (t.remoteTimeoutCmd p).st := by
  unfold State.remoteTimeoutCmd
  extract_lets
  exact iteSt h.no h.update.ok

theorem semAddCmd (h : s.Keeps t) {p : Post} : s.Keeps (t.semAddCmd p).st := by
  unfold State.semAddCmd
  extract_lets
  exact iteSt h.no h.semAdd.ok

theorem semToHost (h : s.Keeps t) {p : Post} : s.Keeps (t.semToHost p).st := by
  unfold State.semToHost
  extract_lets
  exact iteSt h.no (iteSt h.update.ok (iteSt h.no h.update.ok))

theorem rollbackCmd (h : s.Keeps t) {p : Post} : s.Keeps (t.rollbackCmd p).st := by
  unfold State.rollbackCmd
  extract_lets
  exact iteSt h.no (iteSt h.no h.modEph.ok)

theorem dumpSet (h : s.Keeps t) {p : Post} : s.Keeps (t.dumpSet p).st := by
  unfold State.dumpSet
  extract_lets
  exact iteSt h.no h.modRanas.ok

theorem moduleReset (h : s.Keeps t) {p : Post} : s.Keeps (t.moduleReset p).st := by
  unfold State.moduleReset
  extract_lets
  exact iteSt h.modRanas.ok h.no

theorem fabCommand (h : s.Keeps t) {n op : Nat} {f : Post → State → CmdRes} (hf : ∀ {a1 u}, s.Keeps u → s.Keeps (f a1 u).st) :
    s.Keeps (t.fabCommand n op f) := by
  unfold State.fabCommand
  split
  · exact h
  · exact h.ite (h.command hf)

/-! ### Machine/Mgmt -/

theorem setBank (h : s.Keeps t) {n : Nat} {b : FwBank} : s.Keeps (t.setBank n b) :=
  h.modRanas

theorem storeImage (h : s.Keeps t) {flashFails : Bool} {l : List Byte} : s.Keeps (t.storeImage flashFails l).2 :=
  (h.setBank.ite h).logAdd

theorem fwWrite (h : s.Keeps t) {flashFails : Bool} {p : Post} : s.Keeps (t.fwWrite flashFails p).st := by
  unfold State.fwWrite
  extract_lets
  exact iteSt h.no (iteSt h.no (iteSt h.internal h.storeImage))

theorem fwActivate (h : s.Keeps t) {bank commit : Nat} : s.Keeps (t.fwActivate bank commit).2 :=
  h.pair.iteSnd (h.modRanas.pair.iteSnd (h.pair.iteSnd h.modRanas.barSet.pair))

theorem newNonce (h : s.Keeps t) : s.Keeps t.newNonce.2 := by
  unfold State.newNonce
  exact h.fresh.modRanas.pair

theorem putToken (h : s.Keeps t) {l : List Byte} : s.Keeps (t.putToken l).2 := by
  unfold State.putToken
  extract_lets _ s1
  have hs1 : s.Keeps s1 := h.modRanas
  exact hs1.pair.iteSnd hs1.modRanas.barSet.hostEvent.logAdd.pair

theorem revokeToken (h : s.Keeps t) : s.Keeps t.revokeToken :=
  (h.modRanas.barSet.foldl fun h => h.modCore).logAdd

theorem debugToken (h : s.Keeps t) {p : Post} : s.Keeps (t.debugToken p).st := by
  unfold State.debugToken
  refine iteSt h.no (iteSt h.revokeToken.ok (iteSt h.no (iteSt h.internal ?_)))
  extract_lets
  split
  rename_i he
  have hput := h.putToken.snd he
  exact iteSt hput.ok hput

theorem spdmAnswer (h : s.Keeps t) {t' need stage : Nat} {ok : Bool} {body : List Byte} :
    s.Keeps (t.spdmAnswer t' need stage ok body) :=
  h.ite (h.emit.ite h.modRanas.emit)

theorem freeList (h : s.Keeps t) {n : Nat} : s.Keeps (t.freeList n).2 := by
  unfold State.freeList
  exact h.fresh

theorem execPldmFirmwareUpdate (h : s.Keeps t) {image : Option (List Byte × Bool)} :
    s.KeepsOut (execPldmFirmwareUpdate image t) := by
  unfold Machine.execPldmFirmwareUpdate
  refine .ite h.emit (.ite h.emit ?_)
  split
  · exact h.modRanas.emit
  · refine .ite h.emit ?_
    split
    · rename_i he
      have h4 := h.storeImage.snd he
      extract_lets t1
      have ht1 : s.Keeps t1 := h4.modRanas
      exact ht1.hostEvent.emit.ite ht1.emit

theorem execMctpControlMessage (h : s.Keeps t) {assign : Option Nat} : s.KeepsOut (execMctpControlMessage assign t) := by
  unfold Machine.execMctpControlMessage
  split
  · exact h.emit
  · exact .ite h.emit h.modRanas.emit

theorem physRead (h : s.Keeps t) {l : List (Nat × Nat)} {acc : List Byte} : s.Keeps (t.physRead l acc).2 := by
  induction l generalizing t acc with
  | nil => exact h.pair
  | cons p r ih =>
    unfold State.physRead
    split
    · exact ih h.ctlRead
    · split
      · exact h.memFail.pair
      · exact ih h.agentTouch

theorem physWrite (h : s.Keeps t) {l : List (Nat × Nat)} {b : List Byte} : s.Keeps (t.physWrite l b).2 := by
  induction l generalizing t b with
  | nil => exact h.pair
  | cons p r ih =>
    unfold State.physWrite
    split
    · exact ih h.ctlWrite
    · split
      · exact h.memFail.pair
      · exact ih h.agentTouch.memQuiet

theorem eye (h : s.Keeps t) {status : Nat} {body : List Byte} : s.Keeps (t.eye status body) :=
  h.emit

theorem execReadState (h : s.Keeps t) {c n : Nat} : s.KeepsOut (execReadState c n t) := by
  unfold Machine.execReadState
  refine .ite h.eye (.ite h.eye ?_)
  split
  · exact h.eye
  · exact h.eye

theorem execReadMem (h : s.Keeps t) {pa n : Nat} : s.KeepsOut (execReadMem pa n t) := by
  unfold Machine.execReadMem
  refine .ite h.eye (.ite h.eye ?_)
  split
  · next he => exact (h.physRead.snd he).eye
  · next he => exact (h.physRead.snd he).eye

theorem execWriteMem (h : s.Keeps t) {pa : Nat} {l : List Byte} : s.KeepsOut (execWriteMem pa l t) := by
  unfold Machine.execWriteMem
  refine .ite h.eye (.ite h.eye ?_)
  split
  · next he => exact (h.physWrite.snd he).eye
  · next he => exact (h.physWrite.snd he).eye

theorem hostLineRead (h : s.Keeps t) {pa n : Nat} : s.Keeps (t.hostLineRead pa n).2.2 := by
  unfold State.hostLineRead
  extract_lets t'
  have ht' : s.Keeps t' := h.agentTouch
  split
  · exact ht'.memFail
  · exact ht'

theorem hostLineWrite (h : s.Keeps t) {pa : Nat} {l : List Byte} : s.Keeps (t.hostLineWrite pa l) := by
  unfold State.hostLineWrite
  extract_lets t'
  have ht' : s.Keeps t' := h.agentTouch
  split
  · exact ht'.memFail
  · exact ht'.memPut

theorem execHostCxlMemAccess (h : s.Keeps t) {pa n : Nat} {data : Option (List Byte)} :
    s.KeepsOut (execHostCxlMemAccess pa n data t) := by
  unfold Machine.execHostCxlMemAccess
  extract_lets
  refine .ite h ?_
  split
  · exact .ite (h.freeList (n := n)).emit h.hostLineRead.emit
  · exact .ite h.logAdd h.hostLineWrite

/-! ### Machine/Power -/

theorem setRanasState (h : s.Keeps t) {st : Nat} : s.Keeps (t.setRanasState st) := by
  unfold State.setRanasState
  extract_lets s1
  have hs1 : s.Keeps s1 := h.barSet
  exact hs1.emit.ite hs1

theorem fatalBegin (h : s.Keeps t) {reason code : Nat} : s.Keeps (t.fatalBegin reason code) :=
  h.ite ((h.foldl fun h => h.ite h.signal).fabFatal.logAdd.modRanas)

theorem coresStop (h : s.Keeps t) : s.Keeps t.coresStop :=
  h.foldl fun h => h.modCore

theorem flushCaches (h : s.Keeps t) : s.Keeps t.flushCaches :=
  h.update

theorem padFree (h : s.Keeps t) {n : Nat} {b : List Byte} : s.Keeps (t.padFree n b).2 := by
  unfold State.padFree
  exact (h.freeList (n := n - b.length)).pair

theorem dumpSections (h : s.Keeps t) {lost : List Nat} : s.Keeps (t.dumpSections lost).2 := by
  unfold State.dumpSections
  refine pair (foldlOn Prod.snd (fun {acc c} h => ?_) ?_)
  · exact (h.padFree (n := 32768) (b := t.dumpCore c)).pair
  · exact ((h.padFree (n := 8192) (b := t.dumpIdent)).padFree (n := 65536) (b := t.dumpFault)).pair

theorem dumpPut (h : s.Keeps t) {off : Nat} {b : List Byte} : s.Keeps (t.dumpPut off b) :=
  h.memQuiet.ite h.emit

theorem writeDump (h : s.Keeps t) {reason : Nat} {lost : List Nat} : s.Keeps (t.writeDump reason lost) := by
  unfold State.writeDump
  extract_lets
  split
  rename_i he
  have hd := h.dumpSections.snd he
  split
  exact (hd.dumpPut.foldl fun h => h.dumpPut).dumpPut.dumpPut

theorem execFatalError (h : s.Keeps t) {reason code : Nat} {lost : List Nat} :
    s.KeepsOut (execFatalError reason code lost t) := by
  unfold Machine.execFatalError
  refine .ite h ?_
  split
  · exact h.fatalBegin
  · exact .ite h h.coresStop.flushCaches.writeDump.setRanasState.hostEvent

theorem bootCores (h : s.Keeps t) {bad : List Nat} : s.Keeps (t.bootCores bad) :=
  h.foldl fun h => h.ite (h.retireCore.ite h.monitorBoot)

theorem boot (h : s.Keeps t) {bad untrained : List Nat} : s.Keeps (t.boot bad untrained) := by
  unfold State.boot
  extract_lets pick s0
  clear_value pick
  have hs0 : s.Keeps s0 := h.modRanas
  split
  · exact hs0.barSet.setRanasState.logAdd
  · extract_lets _ s2
    have hs2 : s.Keeps s2 := hs0.barSet.logAdd
    exact hs2.bootCores.barSet.setRanasState.hostEvent.ite (hs2.setRanasState.foldl fun h => h.logAdd)

theorem resetDevice (h : s.Keeps t) {off : Bool} : s.Keeps (t.resetDevice off) :=
  ⟨h.pending, h.variant, fun w => Tbl.wf_filter _ (h.memWf w)⟩

theorem trainHost (h : s.Keeps t) {modules : Nat} : s.Keeps (t.trainHost modules) := by
  unfold State.trainHost
  extract_lets _ _ s1
  have hs1 : s.Keeps s1 := h.barSet
  exact hs1.hostEvent.logAdd.ite hs1

theorem fieldRepair (h : s.Keeps t) : s.Keeps t.fieldRepair := by
  unfold State.fieldRepair
  exact h.foldl fun h => h.ite h.ctlPut.ctlPut.ctlSet.update

theorem coldReset (h : s.Keeps t) {bad untrained : List Nat} : s.Keeps (t.coldReset bad untrained) :=
  h.flushCaches.resetDevice.trainHost.fieldRepair.boot

theorem warmReset (h : s.Keeps t) {bad : List Nat} : s.Keeps (t.warmReset bad) :=
  h.flushCaches.resetDevice.update.barSet.modRanas.boot

theorem execAlidadeWatchdogExpiry (h : s.Keeps t) {again : Bool} {bad untrained : List Nat} :
    s.KeepsOut (execAlidadeWatchdogExpiry again bad untrained t) := by
  unfold Machine.execAlidadeWatchdogExpiry
  extract_lets t'
  have ht' : s.Keeps t' := h.logAdd
  exact ht'.coldReset.ite ht'.warmReset

theorem execPowerOn (h : s.Keeps t) {bad untrained : List Nat} {modules : Nat} :
    s.KeepsOut (execPowerOn bad untrained modules t) := by
  unfold Machine.execPowerOn
  extract_lets t' t1
  have ht' : s.Keeps t' := h.resetDevice.modRanas
  have ht1 : s.Keeps t1 := by
    dsimp only [t1]
    split
    · exact ht'.logAdd
    · exact ht'
  exact .ite h ht1.trainHost.fieldRepair.boot

theorem unpowered (h : s.Keeps t) : s.Keeps t.unpowered :=
  h.resetDevice.modRanas

theorem clockTo (h : s.Keeps t) {step reason : Nat} : s.Keeps (t.clockTo step reason) :=
  h.update.modRanas.logAdd.hostEvent.emit

/-! ### Machine/Scalar -/

theorem alu (h : s.Keeps t) {x : Issue} {sh : Shape} {d : Reg} {f : Core → Alu} : s.Keeps (t.alu x sh d f) :=
  h.issueCore

theorem cmpOp (h : s.Keeps t) {x : Issue} {sh : Shape} {f : Core → Cond} : s.Keeps (t.cmpOp x sh f) :=
  h.issueCore

theorem pairOp (h : s.Keeps t) {x : Issue} {sh : Shape} {d : AReg} {f : Core → Pair} : s.Keeps (t.pairOp x sh d f) :=
  h.issueCore

/-! ### The commands, and a step -/

/-- Every command keeps the queue, the variant and the canonical form of memory. -/
theorem exec (h : s.Keeps t) (i : Instr) : s.KeepsOut (exec i t) := by
  cases i with
  | tick => exact (h.tickUnit.fabTick.sendSync.ephTick.foldl fun h => h.dmaOverrun).ceSample.sampleAll
  | holdoverExpiry => exact .ite h.loseLock.lockGone h
  | tickSync => exact .ite h (.ite h.syncLocked (.ite h.syncFree h))
  | periodSwitch => exact .ite h (.ite h.setPeriod.update.ctlPut (.ite h.loseLock.lockGone h))
  | tickModeChange => exact .ite h (h.loseLock.lockGone.ite h).ctlPut.ctlPut.update.ctlPut.setPeriod
  | tickCtrlWrite | tickSwitchAtWrite => exact h.agentWrite
  | tickCountLoRead => exact h.agentRead
  | scheduleStartAtTick => exact h.execScheduleStartAtTick
  | scheduleStopAtTick => exact .ite h h.update.slotsEnd.ctlPut
  | frameTaskStart => exact h.execFrameTaskStart
  | deferredServe => exact h.execDeferredServe
  | slotStart => exact h.execSlotStart
  | slotEnd => exact h.update.linksGo
  | exceptionEntry => exact h.execExceptionEntry
  | deferredErrorReport => exact h.execDeferredErrorReport
  | mulResultLand | divResultLand => exact h.modCore
  | nop => exact h.issueCore
  | mov | li => exact h.alu
  | lia | mova => exact h.pairOp
  | getlo | gethi => exact h.alu
  | setlo | sethi | adda | addai => exact h.pairOp
  | cmpa => exact h.cmpOp
  | add | addc | sub | subb | addi | neg => exact h.alu
  | cmp | cmpi => exact h.cmpOp
  | and_ | or_ | xor_ | andn | not_ | andi | ori | xori | shl | shr | sar | rol | ror | shli | shri | sari | roli | rori | adds
  | subs | addus | subus | sarr | satn | satun | abs | min | max | minu | maxu | clz | ctz | popc | par36 | par18 | brev36
  | brev18 | brev8 | ext | extu | ins | sext18 | sext8 | crc32cB | crc32cW | crc16B | crc16W => exact h.alu
  | ldw | ldh | ldhu | ldb | ldbs => exact h.loadM
  | stw | sth | stb => exact h.storeM
  | lda => exact h.loadM
  | sta => exact h.storeM
  | ldwx => exact h.issue fun h => h.loadRes
  | stwx => exact h.issue fun h => h.storeRes
  | push => exact h.issue fun h => h.pushRes
  | pop => exact h.issue fun h => h.popRes
  | pusha => exact h.issue fun h => h.pushRes
  | popa => exact h.issue fun h => h.popRes
  | amoadd | amoswap | cas => exact h.issue fun h => h.amoRes
  | mul | mulu | div | divu | rdmpl | rdmph | rdmq | rdmrem | wrmpl | wrmph | wrmq | wrmrem => exact h.issueCore
  | b | bc | br => exact h.branch
  | call | callr => exact h.issue fun h => h.callRes
  | ret => exact h.issue fun h => h.stackRes fun h => h.modCore
  | cbz | cbnz => exact h.branch
  | eret => exact h.issue fun h => h.eret
  | brk | waite | rdpsw | wrpsw | rdaf | wraf | rdamax | rdcsp | wrcsp | rdafp | wrafp => exact h.issueCore
  | fence => exact h.issue fun h => h.update.ite h
  | xinvAll | xinv => exact h.sysK id
  | fdone => exact h.issue fun h => h.modCore.taskEnded.next.ite h.next
  | rdm => exact h.issue fun h => (.ite trivial h.setCore)
  | wrm => exact h.issue fun h => (.ite trivial (h.update.next.ite (h.next.ite h.setCore.next)))
  | vadd | vsub | vmul | vfma | vfnma | vmin | vmax | vabs | vneg | vdiv | vsqrt | vadds | vsubs | vmulq | vsarr | vsat => exact h.issueCore
  | vand | vor | vxor | vandn => exact h.vBits
  | vnot => exact h.issueCore
  | vshl | vshr | vsar => exact h.vShift
  | vmov | vbcast | vins | vext | viota | vcmp | vsel | mand | mor | mxor | mnot | mpopc | mfirst | mtow | mfromw | vcvtw | vcvtn
  | vmxq | vschoose | vrsum | vrmax | vrmin | vscan | vperm | vperm2 | vslideup | vslidedn | vcompress | vrcp | vrsqrt | vexp2
  | vlog2 => exact h.issueCore
  | vld => exact h.issue fun h => h.vecLoad
  | vst => exact h.issue fun h => h.vecStore
  | vlds => exact h.issue fun h => h.vecLoad
  | vsts => exact h.issue fun h => h.vecStore
  | vldn => exact h.issue fun h => h.vecLoad
  | vstn => exact h.issue fun h => h.vecStore
  | vgather => exact h.issue fun h => (.ite trivial h.vecLoad)
  | vscatter => exact h.issue fun h => (.ite trivial h.vecStore)
  | plcfg | plget | plrel | plrelm | plclrf => exact h.plateOp
  | pld => exact h.issue fun h => h.pldRes
  | pldRowWrite => exact h.execPldRowWrite
  | pst => exact h.issue fun h => h.pstRes
  | plsv => exact h.issue fun h => h.setCore.putImage
  | plrs => exact h.issue fun h => h.plrsRes
  | plcvt | plmxq | plmvr | plmrv => exact h.plateOp
  | arlds | arldsx | arldsp => exact h.arrLoad
  | stationaryLoadComplete => exact h.modCore
  | mma | mmax | mmacv => exact h.arrPass
  | passComplete => exact h.modCore
  | arget | arset | arinv => exact h.issueCore
  | arsv => exact h.issue fun h => h.putImage
  | arrs => exact h.issue fun h => h.arrsRes
  | requestAdmit => exact h.requestAdmit
  | memoryRequestComplete => exact h.execMemoryRequestComplete
  | gddr7Refresh => exact .ite h (h.foldl fun h => h.memErrLog)
  | tcOpGo => exact .ite h h.agentWrite
  | tcOpDone => exact .ite h ((h.foldl fun h => h.detect).update.foldl fun h => h.l1Purge).ctlPut.ctlPut
  | remoteRequest => exact .ite h.receive h
  | remoteTimeoutExpiry => exact h.execRemoteTimeoutExpiry
  | semCountUpdate => exact .ite h (h.ite h.emit).semPut
  | cmbxPost => exact .ite h h.agentWrite
  | arbitrationDecision => exact h.execArbitrationDecision
  | locklong => exact h.execLocklong
  | dmaDoorbell | dmaStart | dmaStop | dmaAbort | dmaResume | dmaSkip | dmaReset => exact h.dmaCommand
  | dmaDescriptorFetch => exact .ite h.dmaFetch h
  | dmaNop => exact h.dmaOp h.dmaEnd
  | copy | copy2d | transpose => exact h.dmaOp h.dmaMove
  | convert => exact h.dmaOp h.dmaConvert
  | fill => exact h.dmaOp h.dmaMove
  | genchk => exact h.dmaOp h.dmaEnd
  | dmaCompletionRecord => exact .ite h.dmaRecord h
  | dmaPhaseStart => exact .ite h.dmaPhase h
  | portBringup => exact h.portStart.ite h
  | bringupPhaseTimeout => exact .ite h (.ite h.portFail (.ite h.portFail h.modPortX))
  | bringupRetry => exact .ite h.portStart h
  | linkHello => exact h.execLinkHello
  | delayProbe => exact h.execDelayProbe
  | flitReceive => exact h.execFlitReceive
  | nak => exact h.execNak
  | retrainDone => exact h.execRetrainDone
  | credit => exact .ite h h.modPortX.linksGo
  | unreachable => exact .ite h.refuse h.flowBreak
  | routeAt => exact .ite h.refuse (.ite h h.modPortX)
  | routeUpdate => exact .ite h h.boundaryAdmit.routesTake.allFailed
  | beacon => exact h.execBeacon
  | flood => exact .ite h (h.foldl fun h => h.flood)
  | noticeEffect => exact h.boundaryLeave.noticesOf.elect
  | seedTakeover => exact .ite (.ite h.ctlPut h.ctlSet.ctlPut.update.tickEvent.fabEvent.elect) h
  | fabEnable | fabAuth | fabDrain | fabRejoin => exact h.agentWrite
  | trainingDone => exact .ite h.fabEnter.update h
  | admitAnnounce => exact .ite h.ctlPut.ctlSet.floodOwn h
  | admitAtTick => exact .ite h (h.boundaryAdmit.ite h.admitStep)
  | drainComplete => exact .ite h.ctlSet.floodOwn.update h
  | leaveAtTick => exact h.boundaryLeave.ite h
  | notAdmitted => exact .ite h.refuse (.ite h.flowBackoff h)
  | portLost => exact .ite h h.lockGone.lostPort
  | flowCmdListen | flowCmdOpen | flowCmdClose | flowCmdReset => exact h.flowCommand
  | flowOpen => exact h.execFlowOpen.kickCe
  | flowAccept => exact h.execFlowAccept.kickCe
  | flowRefuse => exact .ite h.refuse (.ite h.flowBackoff h)
  | flowClose => exact .ite h.refuse (.ite h (.ite h.flowEnter.flowFailAll h.flowBreak))
  | flowCloseDrained => exact .ite h.flowControl.flowEnter h
  | backoffExpiry => exact .ite h.flowOpenSend h
  | openTimeout => exact .ite h.flowBackoff h
  | reorderTimeout => exact .ite h.flowBreak h
  | write | read => exact h.receive
  | resp => exact h.execResp
  | atomic | bulk => exact h.receive
  | fabBindInv => exact h.agentWrite
  | ceQueueDoorbell | ceQueueStart | ceQueueStop | ceQueueReset => exact h.ceCommand
  | ceNop | reduceScatter | allGather | allReduce | allToAll | permute => exact h.ceBegin
  | partTake => exact h.execPartTake
  | blocks | data | ack | resend => exact h.receive
  | bucketDeadline => exact h.execBucketDeadline
  | backupReq | backupData => exact h.receive
  | backupGraceExpiry => exact h.execBackupGraceExpiry
  | carryComplete => exact h.execCarryComplete
  | epochMismatch => exact h.receive
  | memberLost => exact h.execMemberLost
  | bucketComplete => exact h.execBucketComplete
  | shAdv => exact .ite h.agentWrite h
  | shHoldExpiry => exact .ite h h.ctlPut
  | linFind => exact .ite h.agentWrite h
  | ephOpen => exact h.agentWrite
  | recordOpen => exact h.execRecordOpen
  | ephCommit => exact h.agentWrite
  | stepCommit => exact h.execStepCommit
  | rollbackAtTick => exact h.execRollbackAtTick
  | ephModeChange => exact .ite h h.ctlPut.ctlPut
  | ephDigLen => exact h.agentWrite
  | digestComplete => exact h.execDigestComplete
  | ephNote | ephRecovWrite => exact h.agentWrite
  | budgetExpired => exact .ite h.modEph.ephEvent h
  | coreRetirement => exact h.retireCore.ite h
  | fatalError => exact h.execFatalError
  | mbxDoorbell => exact h.mbxPost.ite h
  | mbxResRead => exact .ite h.mbxResRead.emit h
  | commandComplete => exact h.execCommandComplete
  | getIdentity => exact h.command fun h => h.getIdentity
  | getStatus => exact h.command fun h => h.getStatus
  | getLog => exact h.command fun h => h.getLog
  | runtimeStart => exact h.command fun h => h.runtimeStart
  | coreReset => exact h.command fun h => h.coreResetCmd
  | schedInstall => exact h.command fun h => h.schedInstall
  | schedStart => exact h.command fun h => h.schedStart
  | schedStop => exact h.command fun h => h.schedStop
  | dqSet => exact h.command fun h => h.dqSet
  | tickSet => exact h.command fun h => h.tickSet
  | fabConfig => exact h.command fun h => h.fabConfig
  | fabControlEnable | fabControlAuth | fabControlDrain | fabControlRejoin | fabControlDisable
  => exact h.fabCommand fun h => h.fabControl fun h => h.fabCtrl
  | fabControlPortDisable | fabControlPortEnable | fabControlPortRetrain => exact h.fabCommand fun h => h.fabPortOp
  | fabPortRetrain => exact .ite h h.agentWrite
  | fabMembers => exact h.command fun h => h.fabMembers
  | cxlMap => exact h.command fun h => h.cxlMap
  | memPools => exact h.command fun h => h.memPools
  | remoteTimeout => exact h.command fun h => h.remoteTimeoutCmd
  | semAdd => exact h.command fun h => h.semAddCmd
  | semToHost => exact h.command fun h => h.semToHost
  | rollback => exact h.command fun h => h.rollbackCmd
  | dumpSet => exact h.command fun h => h.dumpSet
  | moduleReset => exact h.command fun h => h.moduleReset
  | fwWrite => exact h.command fun h => h.fwWrite
  | fwActivate => exact h.command fun h => h.fwActivate
  | debugNonce => exact h.command fun h => h.newNonce.ok
  | debugToken => exact h.command fun h => h.debugToken
  | hostCxlMemAccess => exact h.execHostCxlMemAccess
  | hostHeartbeat => exact h.barSet
  | getVersion | getCapabilities | negotiateAlgorithms | getDigests | getCertificate => exact h.spdmAnswer
  | challenge | getMeasurements => exact (h.freeList (n := 114)).spdmAnswer
  | pldmFirmwareUpdate => exact h.execPldmFirmwareUpdate
  | activateFirmware => exact h.fwActivate.emit
  | pldmSensorRead => exact .ite h.emit (.ite h.emit (.ite h.emit (.ite h.emit (h.freeField (n := 4)).emit)))
  | getId => exact h.eye
  | getNonce => exact h.newNonce.eye
  | putToken => exact .ite h.eye (h.putToken.eye.ite h.putToken.eye)
  | readState => exact h.execReadState
  | halt | resume | step => exact .ite h.eye (.ite h.eye h.modCore.eye)
  | readMem => exact h.execReadMem
  | writeMem => exact h.execWriteMem
  | alidadeTrace n => exact .ite h.eye (h.freeList (n := min n 4096)).eye
  | readPlate | readSet => exact .ite h.eye (.ite h.eye h.eye)
  | powerOn => exact h.execPowerOn
  | powerOff => exact .ite h h.tasksStop.dmaStopAll.ceStopAll.coresStop.fabFatal.flushCaches.unpowered
  | abruptPowerOff => exact .ite h h.unpowered.modRanas
  | powerFatal => exact h.ite h.fatalBegin
  | throttleStepDown | throttleStepUp => exact h.clockTo.ite h
  | coldReset => exact h.coldReset.ite h
  | warmReset => exact h.warmReset.ite h
  | coreResetSequence => exact h.execCoreResetSequence
  | linkReset => exact h.linkReset
  | alidadeWatchdogExpiry => exact h.execAlidadeWatchdogExpiry
  | readClear => exact h.execReadClear
  | registerWrite => exact h.execRegisterWrite
  | linkAlignLost => exact h.portRetrain
  | lineageSearchComplete => exact h.linDone
  | ucieCxlLinkRetrained => exact h.barSet.logAdd
  | cxlExpanderDown => exact .ite h h.update
  | mctpControlMessage => exact h.execMctpControlMessage
  | pldmBaseDiscovery => exact h.emit
  | alidadeRestart => exact h.abandonAll.logAdd

end State.Keeps

theorem step_of_idle {s : State} (h : s.pending = []) : step s = .next s := by
  unfold step; rw [h]

theorem step_of_pending {s : State} {c : Instr} {rest : List Instr} (h : s.pending = c :: rest) :
    step s = exec c { s with pending := rest } := by
  unfold step; rw [h]

/-- A step keeps what a command keeps, of the state without the front command. -/
theorem State.Keeps.of_step {s t : State} (e : step s = .next t) : State.Keeps { s with pending := s.pending.tail } t := by
  cases hp : s.pending with
  | nil =>
    rw [step_of_idle hp] at e
    cases e
    exact ⟨hp, rfl, id⟩
  | cons c rest =>
    rw [step_of_pending hp] at e
    have h := (State.Keeps.refl { s with pending := rest }).exec c
    rw [e] at h
    exact h

/-- Settles O59: every command keeps the queue it is given, which is the queue without it, and the variant. -/
theorem stepsKeepTheQueueAndTheVariant : Obligations.StepsKeepTheQueueAndTheVariant := by
  intro s t e
  have h := State.Keeps.of_step e
  exact ⟨h.pending, h.variant⟩

end Sys2Proof.Machine
end

section
/-!
SUPPORT. An access to a register by an agent (R13): what the level permits, and the register commands as the write or read of
their register.
-/
namespace Sys2Proof.Machine

/-! ### One bit of a word -/

theorem maskOf_one (n i : Nat) : maskOf n i 1 = BitVec.ofNat n (2 ^ i) := by
  simp [maskOf]

theorem setBitAt_true {n : Nat} (w : BitVec n) (i : Nat) : setBitAt w i true = w ||| BitVec.ofNat n (2 ^ i) := by
  have hor (m : BitVec n) : w &&& ~~~m ||| m = w ||| m := by
    ext j
    simp only [BitVec.getElem_or, BitVec.getElem_and, BitVec.getElem_not]
    cases w[j] <;> cases m[j] <;> rfl
  simpa [setBitAt, setFld, maskOf_one] using hor (BitVec.ofNat n (2 ^ i))

theorem setBitAt_false {n : Nat} (w : BitVec n) (i : Nat) : setBitAt w i false = w &&& ~~~ BitVec.ofNat n (2 ^ i) := by
  simp [setBitAt, setFld, maskOf_one]

/-- FAB_CTRL with ENABLE and AUTH kept, and one bit as given. -/
theorem State.fabKeep_setBitAt (s : State) (i : Nat) (b : Bool) : setBitAt s.fabKeep i b =
    if b then s.ctlGet 0x200000 &&& 3#36 ||| BitVec.ofNat 36 (2 ^ i) else s.ctlGet 0x200000 &&& 3#36 &&& ~~~ BitVec.ofNat 36 (2 ^ i) := by
  cases b
  · exact setBitAt_false _ _
  · exact setBitAt_true _ _

/-! ### The bounds of the windows -/

theorem ctlInBlock_iff {o : Nat} : ctlInBlock o = true ↔
    o < 0xC0000 ∨ (0x100000 ≤ o ∧ o < 0x210000) ∨ (0x220000 ≤ o ∧ o < 0x230000) ∨ (0x300000 ≤ o ∧ o < 0x400000) := by
  simp [ctlInBlock, or_assoc]

theorem dmaPresent_lt {v : Variant} {q : Nat} (h : dmaPresent v q = true) : q < 256 := by
  cases v <;> simp [dmaPresent] at h <;> omega

theorem Variant.dies_le (v : Variant) : v.dies ≤ 4 := by cases v <;> decide

theorem Variant.ports_le (v : Variant) : v.ports ≤ 10 := by cases v <;> decide

theorem Variant.cores_le (v : Variant) : v.cores ≤ 192 := by cases v <;> decide

/-! ### A write and a read by an agent -/

section
variable {s : State} {by_ : Agent} {o : Nat} {v : Word}

theorem State.agentWrite_permitted (live : s.agentLive by_ = true) (hb : ctlInBlock o = true) (ho : o % 8 = 0)
    (hd : s.ctlDenied (s.agentLevel by_) o = false) : s.agentWrite by_ o v = s.ctlWrite by_ o v := by
  simp [State.agentWrite, live, hb, ho, hd]

theorem State.agentWrite_denied_core {c : Nat} (live : s.agentLive (.core c) = true) (hb : ctlInBlock o = true) (ho : o % 8 = 0)
    (hd : s.ctlDenied (s.agentLevel (.core c)) o = true) : s.agentWrite (.core c) o v = s.trapped c 0x04 5#36 0#72 := by
  simp [State.agentWrite, live, hb, ho, hd, State.trapped]

theorem State.agentWrite_denied_other (hd : s.ctlDenied (s.agentLevel by_) o = true) (hc : ∀ c, by_ ≠ .core c) :
    s.agentWrite by_ o v = s := by
  cases by_ with
  | core c => exact absurd rfl (hc c)
  | dma q => simp [State.agentWrite, hd]
  | alidade => simp [State.agentWrite, hd]
  | host => simp [State.agentWrite, hd]

theorem State.agentRead_permitted (live : s.agentLive by_ = true) (hb : ctlInBlock o = true) (ho : o % 8 = 0)
    (hd : s.ctlReadDenied (s.agentLevel by_) o = false) :
    s.agentRead by_ o = (s.ctlRead by_ o).2.emit (.readVal (s.ctlRead by_ o).1) := by
  simp [State.agentRead, live, hb, ho, hd]

/-- The host has its own registers (R13): no live agent of the windows is the host. -/
theorem exec_registerWrite (live : s.agentLive by_ = true) : exec (.registerWrite by_ o v) s = .next (s.agentWrite by_ o v) := by
  cases by_ with
  | core c => rfl
  | dma q => rfl
  | alidade => rfl
  | host => cases live

theorem exec_readClear (live : s.agentLive by_ = true) : exec (.readClear by_ o) s = .next (s.agentRead by_ o) := by
  cases by_ with
  | core c => rfl
  | dma q => rfl
  | alidade => rfl
  | host => cases live

end

/-- TICK_COUNT_LO reads as the count's low word, and the shadow of a core that reads it takes the high one (R32). -/
theorem State.ctlRead_tickCountLo (s : State) (by_ : Agent) : (s.ctlRead by_ 0x30).1 = word s.now ∧
    ∀ m, by_ = .core m → Tbl.get 0#36 (s.ctlRead by_ 0x30).2.tickShadow m = s.tickCount.extractLsb' 36 36 := by
  refine ⟨?_, fun m hm => ?_⟩
  · simp [State.ctlRead, State.ctlPeek]
  · subst hm
    simp [State.ctlRead, apply_ite State.tickShadow]

/-! ### The commands that are a write -/

/-- A command that is the write of a value to the register at a window offset by an agent. -/
def State.Writes (s : State) (by_ : Agent) (e : Instr × Nat × Word) : Prop :=
  exec e.1 s = .next (s.agentWrite by_ e.2.1 e.2.2) ∧ ctlInBlock e.2.1 = true ∧ e.2.1 % 8 = 0

namespace State.Writes

section
variable {s : State} {by_ : Agent} {c : Instr} {o r : Nat} {w : Word}

/-- What such a command does, by the level of an agent that is live. -/
theorem outcome (h : s.Writes by_ (c, o, w)) (live : s.agentLive by_ = true) :
    (s.ctlDenied (s.agentLevel by_) o = false → exec c s = .next (s.ctlWrite by_ o w)) ∧
    (s.ctlDenied (s.agentLevel by_) o = true →
      (∀ m, by_ = .core m → exec c s = .next (s.trapped m 0x04 5#36 0#72)) ∧ ((∀ m, by_ ≠ .core m) → exec c s = .next s)) := by
  obtain ⟨he, hb, ho⟩ := h
  rw [he]
  refine ⟨fun hd => ?_, fun hd => ⟨fun m hm => ?_, fun hm => ?_⟩⟩
  · rw [agentWrite_permitted live hb ho hd]
  · subst hm
    rw [agentWrite_denied_core live hb ho hd]
  · rw [agentWrite_denied_other hd hm]

/-- At an offset that is a constant. -/
theorem const (he : exec c s = .next (s.agentWrite by_ o w)) (ho : (ctlInBlock o && o % 8 == 0) = true) : s.Writes by_ (c, o, w) := by
  obtain ⟨hb, h8⟩ := Bool.and_eq_true_iff.mp ho
  exact ⟨he, hb, beq_iff_eq.mp h8⟩

/-- A register of a DMA channel (R287). -/
theorem dma {q : Nat} (hq : dmaPresent s.variant q = true) (hr : r < 0x1000) (h8 : r % 8 = 0)
    (he : exec c s = .next (s.dmaCommand by_ q r w)) : s.Writes by_ (c, 0x100000 + q * 0x1000 + r, w) := by
  have hlt := dmaPresent_lt hq
  refine ⟨he.trans (congrArg _ (if_pos hq)), ctlInBlock_iff.mpr ?_, ?_⟩ <;> dsimp only <;> omega

/-- A register of a collective queue (R351). -/
theorem ce {q : Nat} (hq : q < 8) (hr : r < 0x80) (h8 : r % 8 = 0)
    (he : exec c s = .next (s.ceCommand by_ q r w)) : s.Writes by_ (c, ceOff q r, w) := by
  refine ⟨he.trans (congrArg _ (if_pos hq)), ctlInBlock_iff.mpr ?_, ?_⟩ <;> dsimp only [ceOff] <;> omega

end

theorem tcOpGo {s : State} {die : Nat} (h : die < s.variant.dies) (by_ : Agent) (v : Word) :
    s.Writes by_ (.tcOpGo by_ die v, 0x80000 + die * 0x10000 + 8, v) := by
  have hle := s.variant.dies_le
  refine ⟨if_neg (Nat.not_le.mpr h), ctlInBlock_iff.mpr ?_, ?_⟩ <;> dsimp only <;> omega

theorem cmbxPost (s : State) {n k : Nat} (h : n < 256 ∧ k < 8) (by_ : Agent) (v : Word) :
    s.Writes by_ (.cmbxPost by_ n k v, 0x220000 + n * 0x100 + k * 0x20 + 0x10, v) := by
  obtain ⟨hn, hk⟩ := h
  have hin : ¬ (256 ≤ n ∨ 8 ≤ k) := by omega
  refine ⟨if_neg hin, ctlInBlock_iff.mpr ?_, ?_⟩ <;> dsimp only <;> omega

theorem fabPortRetrain {s : State} {p : Nat} (h : p < s.variant.ports) (by_ : Agent) :
    s.Writes by_ (.fabPortRetrain by_ p, 0x200200 + p * 0x40, s.ctlGet (0x200200 + p * 0x40) ||| 2#36) := by
  have hle := s.variant.ports_le
  refine ⟨?_, ctlInBlock_iff.mpr ?_, ?_⟩
  · exact (if_neg (Nat.not_le.mpr h)).trans (by rw [setBitAt_true]; rfl)
  all_goals dsimp only; omega

theorem shAdv (s : State) {n : Nat} (h : n < 512) (by_ : Agent) (v : Word) : s.Writes by_ (.shAdv by_ n v, shOff n 0x28, v) := by
  refine ⟨if_pos h, ctlInBlock_iff.mpr ?_, ?_⟩ <;> dsimp only [shOff] <;> omega

theorem linFind {s : State} {n : Nat} (h : n < s.variant.cores) (by_ : Agent) (v : Word) :
    s.Writes by_ (.linFind by_ n v, 0x61000 + 16 * n, v) := by
  have hle := s.variant.cores_le
  refine ⟨if_pos (decide_eq_true h), ctlInBlock_iff.mpr ?_, ?_⟩ <;> dsimp only <;> omega

/-- A write of FAB_CTRL that keeps ENABLE and AUTH but for the bit it gives (R321). -/
theorem fabCtrl {s : State} {by_ : Agent} (c : Instr) (i : Nat) (b : Bool)
    (he : exec c s = .next (s.agentWrite by_ 0x200000 (setBitAt s.fabKeep i b))) :
    s.Writes by_ (c, 0x200000, if b then s.ctlGet 0x200000 &&& 3#36 ||| BitVec.ofNat 36 (2 ^ i)
      else s.ctlGet 0x200000 &&& 3#36 &&& ~~~ BitVec.ofNat 36 (2 ^ i)) :=
  .const (he.trans (by rw [s.fabKeep_setBitAt i b])) rfl

end State.Writes

theorem forall_mem_ite {α : Type} {P : α → Prop} {c : Prop} [Decidable c] {l : List α} (h : c → ∀ e ∈ l, P e) :
    ∀ e ∈ if c then l else [], P e := by
  split
  · next hc => exact h hc
  · exact List.forall_mem_nil _

/-- Settles O34: each command of the list is the write of its register, and the level decides what the write does. -/
theorem registerCommandsReachTheirRegister : Obligations.RegisterCommandsReachTheirRegister := by
  intro s by_ q n k die p f on v keep cmds live
  have writes : ∀ e ∈ cmds, s.Writes by_ e := by
    simp only [cmds, List.forall_mem_append]
    refine ⟨⟨⟨⟨⟨⟨⟨?constant, ?die⟩, ?mailbox⟩, ?channel⟩, ?port⟩, ?queue⟩, ?advance⟩, ?lineage⟩
    case constant =>
      simp only [List.forall_mem_cons]
      exact ⟨.const rfl rfl, .const rfl rfl, .const rfl rfl, .const rfl rfl, .fabCtrl _ 1 on rfl, .fabCtrl _ 0 on rfl,
        .fabCtrl _ 2 true rfl, .fabCtrl _ 3 true rfl, .const rfl rfl, .const rfl rfl, .const rfl rfl, .const rfl rfl, .const rfl rfl,
        .const rfl rfl, .const rfl rfl, .const rfl rfl, .const rfl rfl, .const rfl rfl, List.forall_mem_nil _⟩
    case die => exact forall_mem_ite fun h => List.forall_mem_singleton.mpr (.tcOpGo h by_ v)
    case mailbox => exact forall_mem_ite fun h => List.forall_mem_singleton.mpr (.cmbxPost s h by_ v)
    case channel =>
      refine forall_mem_ite fun h => ?_
      have dma {c : Instr} {r : Nat} {w : Word} := State.Writes.dma (by_ := by_) (c := c) (r := r) (w := w) h
      simp only [List.forall_mem_cons]
      exact ⟨dma (by decide) rfl rfl, dma (by decide) rfl rfl, dma (by decide) rfl rfl, dma (by decide) rfl rfl, dma (by decide) rfl rfl,
        dma (by decide) rfl rfl, dma (by decide) rfl rfl, List.forall_mem_nil _⟩
    case port => exact forall_mem_ite fun h => List.forall_mem_singleton.mpr (.fabPortRetrain h by_)
    case queue =>
      refine forall_mem_ite fun h => ?_
      have ce {c : Instr} {r : Nat} {w : Word} := State.Writes.ce (s := s) (by_ := by_) (c := c) (r := r) (w := w) h
      simp only [List.forall_mem_cons]
      exact ⟨ce (by decide) rfl rfl, ce (by decide) rfl rfl, ce (by decide) rfl rfl, ce (by decide) rfl rfl, List.forall_mem_nil _⟩
    case advance => exact forall_mem_ite fun h => List.forall_mem_singleton.mpr (.shAdv s h by_ v)
    case lineage => exact forall_mem_ite fun h => List.forall_mem_singleton.mpr (.linFind h by_ v)
  refine ⟨fun c o w hm => (writes _ hm).outcome live, fun o hb ho hd => ?_, fun o hb ho hd => ?_, ?_⟩
  · rw [exec_registerWrite live, State.agentWrite_permitted live hb ho hd]
  · rw [exec_readClear live, State.agentRead_permitted live hb ho hd]
  · obtain ⟨hv, hs⟩ := s.ctlRead_tickCountLo by_
    refine ⟨(s.ctlRead by_ 0x30).2, ?_, hs⟩
    rw [← hv]
    exact congrArg _ (State.agentRead_permitted live rfl rfl (by simp [State.ctlReadDenied]))

end Sys2Proof.Machine
end
